-- ==== Sys2Proof/Word.lean ====
section
/-!
DEFINITION. Word.lean: the word types of the core's registers and ports (10_state.md R20 to R49).
Bits are numbered from 0 at the least significant bit (00_scope.md R7); the only signed word is `TempQ20`.
-/

namespace Sys2Proof

/-- A byte: a frame-buffer register, a byte of a transport transaction (00_scope.md R7). -/
abbrev Byte := BitVec 8

/-- A host operation code, `op_code[2:0]` (30_encoding.md R90). -/
abbrev OpCode := BitVec 3

/-- A 20-bit raw field, unsigned (41_frame_decoder.md R135, R136). -/
abbrev Raw20 := BitVec 20

/-- `TEMP_Q20`: 29 bits, two's complement (10_state.md R48). -/
abbrev TempQ20 := BitVec 29

/-- `HUM_Q20`: 27 bits, unsigned (10_state.md R49). -/
abbrev HumQ20 := BitVec 27

/-- A count of status reads, 16 bits (10_state.md R34, R40). -/
abbrev PollCount := BitVec 16

end Sys2Proof
end

