-- ==== Sys2Proof/Config.lean ====
section
/-!
DEFINITION. Config.lean: what an integration fixes (the open widths of 00_scope.md R6, constants without a body, so that
what is proved holds whatever they are), the levels of the core's inputs (20_memory.md R80, 30_encoding.md R90,
70_reset_and_hazards.md R230), and the one free value of the model: what the environment presents at a step about which
the state says nothing.
-/

namespace Sys2Proof

/-- BUS_W, OPEN: any width; the spec suggests 8 and fixes none (00_scope.md R6). No body, so nothing can be proved about
its value. Log 1. -/
opaque Config.busW : Nat

/-- HANDLE_W, OPEN: any width; the spec suggests 32 and fixes none (00_scope.md R6). No body. Log 1. -/
opaque Config.handleW : Nat

/-- FLAGS_W, OPEN: any width; the spec suggests 32 and fixes none (00_scope.md R6). No body. Log 1. -/
opaque Config.flagsW : Nat

/-- A bus index (10_state.md R32). -/
abbrev BusIndex := BitVec Config.busW

/-- The opaque handle a successful open returns (10_state.md R38). -/
abbrev Handle := BitVec Config.handleW

/-- The `flags` argument of `open` (10_state.md R35). -/
abbrev OpenFlags := BitVec Config.flagsW

/-- The four strap inputs, sampled at hardware reset (10_state.md R32 to R35). -/
structure Straps where
  /-- `CFG_BUS_INDEX` (R32) -/
  busIndex : BusIndex
  /-- `CFG_CRC_LENIENT` (R33): false strict, true lenient -/
  crcLenient : Bool
  /-- `CFG_POLL_LIMIT` (R34): 0 unbounded -/
  pollLimit : PollCount
  /-- `CFG_OPEN_FLAGS` (R35) -/
  openFlags : OpenFlags
deriving DecidableEq, Repr, Inhabited

/-- The levels of every input of the core during one step: the reset input (R230), the straps, the host's operation
port (R90), the transport's answer port (R80) and the delay timer's tick (R74). -/
structure Pins where
  /-- hardware reset is asserted (70_reset_and_hazards.md R230) -/
  reset : Bool
  /-- the strap inputs (10_state.md R32 to R35) -/
  straps : Straps
  /-- `op_valid` (30_encoding.md R90) -/
  opValid : Bool
  /-- `op_code` (30_encoding.md R90) -/
  opCode : OpCode
  /-- `tr_rsp_valid` (20_memory.md R80) -/
  rspValid : Bool
  /-- `tr_rsp_err`: true is `IoError` (R80) -/
  rspErr : Bool
  /-- `tr_rsp_len`: the number of bytes returned, 0 to 15 (R80) -/
  rspLen : BitVec 4
  /-- `tr_rsp_rdata`: up to seven bytes, byte 0 in bits 7:0 (R80) -/
  rspRdata : BitVec 56
  /-- `tr_rsp_handle` (R80) -/
  rspHandle : Handle
  /-- one tick of the delay timer (20_memory.md R74) -/
  tick : Bool
deriving DecidableEq, Repr, Inhabited

/-- THE FREE VALUE: the input levels of the `n`-th step for which the state's list `env` has no entry. The host, the
transport, the sensor, the timer and the reset input may do anything then (00_scope.md R10, 93 U1, U7, U16, U19).
No body, so nothing can be proved about a value of it. Log 4. -/
opaque Config.freePins : Nat → Pins

end Sys2Proof
end

