-- ==== Sys2Proof/Syntax.lean ====
section
/-!
DEFINITION. Syntax.lean: the sixteen rows of opcode_table.json (30_encoding.md R102), the formats they stand in, and the
transport requests of the port (20_memory.md R80, 30_encoding.md R94).
-/

namespace Sys2Proof

/-- The formats of the table (30_encoding.md R90, R93, R94). Their code spaces are separate: the port a word stands on
says which format it has. -/
inductive Format where
  /-- a 3-bit operation code on the host's port (R90) -/
  | hostop
  /-- a 5-bit pair of request kind and length on the transport's request port (R94) -/
  | trreq
  /-- a 1-byte command carried as write data (R93) -/
  | wire1
  /-- a 3-byte command carried as write data (R93) -/
  | wire3
deriving DecidableEq, Repr

/-- `tr_req_kind` (30_encoding.md R94). Code `11` is never issued and has no constructor. -/
inductive TrKind where
  | open
  | write
  | read
deriving DecidableEq, Repr

/-- The three wire commands, immutable constants (30_encoding.md R93, 10_state.md R51). -/
inductive WireCmd where
  | init
  | trigger
  | softReset
deriving DecidableEq, Repr

/-- The instruction set: one constructor per row of the table. No row has an operand (30_encoding.md R90, R97, R98). -/
inductive Instr where
  /-- reserved code 0 (R91, R92) -/
  | opNone
  /-- `init()` (43_session_ops.md R173) -/
  | opInit
  /-- `get_temperature()` (R181) -/
  | opGetTemperature
  /-- `get_humidity()` (R182) -/
  | opGetHumidity
  /-- `get_all()` (R183) -/
  | opGetAll
  /-- `soft_reset()` (R190) -/
  | opSoftReset
  /-- reserved code 6 (R92) -/
  | opReserved6
  /-- reserved code 7 (R92) -/
  | opReserved7
  /-- `open(bus_index, 0x38, flags)` (R174, R175) -/
  | trOpen
  /-- a 1-byte write (R191) -/
  | trWrite1
  /-- a 3-byte write (42_measurement_fsm.md R150, 43_session_ops.md R177) -/
  | trWrite3
  /-- a status read (42_measurement_fsm.md R153, R154, 43_session_ops.md R176) -/
  | trRead1
  /-- the frame read (42_measurement_fsm.md R156) -/
  | trRead7
  /-- `BE 08 00` (30_encoding.md R93) -/
  | cmdInit
  /-- `AC 33 00` (R93) -/
  | cmdTrigger
  /-- `BA` (R93) -/
  | cmdSoftReset
deriving DecidableEq, Repr

/-- An encoded word: its format and its bytes in the order they are sent or stored. A port code narrower than a byte
stands in the low bits of one byte. -/
structure Encoded where
  format : Format
  bytes : List Byte
deriving DecidableEq, Repr

/-- A transport request as the port carries it, with the arguments its kind has (20_memory.md R80). -/
inductive TrReq where
  /-- `open(bus_index, device_address, flags)` -/
  | open (bus : BusIndex) (addr : BitVec 7) (flags : OpenFlags)
  /-- `write(handle, bytes)`, first byte first -/
  | write (handle : Handle) (bytes : List Byte)
  /-- `read(handle, n)` -/
  | read (handle : Handle) (len : Nat)
deriving DecidableEq, Repr

end Sys2Proof
end

