-- ==== Sys2Proof/WellFormed.lean ====
section
/-!
DEFINITION. WellFormed.lean: which terms are well formed. An instruction has no operand, so every one is; an encoded word
must be an assigned code of its format, and a transport request must be one the core can issue.
-/

namespace Sys2Proof

/-- An instruction has no operand field that could be out of range (30_encoding.md R90, R97, R98). -/
def Instr.wf : Instr → Bool
  | .opNone => true
  | .opInit => true
  | .opGetTemperature => true
  | .opGetHumidity => true
  | .opGetAll => true
  | .opSoftReset => true
  | .opReserved6 => true
  | .opReserved7 => true
  | .trOpen => true
  | .trWrite1 => true
  | .trWrite3 => true
  | .trRead1 => true
  | .trRead7 => true
  | .cmdInit => true
  | .cmdTrigger => true
  | .cmdSoftReset => true

/-- How many bytes a word of each format has (30_encoding.md R98; a port code stands in one byte). -/
def Format.byteCount : Format → Nat
  | .hostop => 1
  | .trreq => 1
  | .wire1 => 1
  | .wire3 => 3

/-- The codes the table assigns in each format, as numbers with the first byte most significant (the table's "match"
column, 30_encoding.md R91, R93, R94). -/
def Format.assigned : Format → List Nat
  | .hostop => [0, 1, 2, 3, 4, 5, 6, 7]
  | .trreq => [0x00, 0x09, 0x0B, 0x11, 0x17]
  | .wire1 => [0xBA]
  | .wire3 => [0xBE0800, 0xAC3300]

/-- The bytes of a word as one number, first byte most significant (30_encoding.md R93). -/
def bytesNat (bs : List Byte) : Nat := bs.foldl (fun n b => n * 256 + b.toNat) 0

/-- A word has its format's length and an assigned code. -/
def Encoded.wf (e : Encoded) : Bool :=
  (e.bytes.length == e.format.byteCount) && e.format.assigned.contains (bytesNat e.bytes)

/-- A request the core can issue: the fixed address for an open (10_state.md R36), one of the three commands for a write
(30_encoding.md R93), one or seven bytes for a read (20_memory.md R70). -/
def TrReq.wf : TrReq → Bool
  | .open _ addr _ => addr == 0x38#7
  | .write _ bytes => (Encoded.mk .wire1 bytes).wf || (Encoded.mk .wire3 bytes).wf
  | .read _ len => (len == 1) || (len == 7)

end Sys2Proof
end

