-- ==== Sys2Proof/Decode.lean ====
section
/-!
DEFINITION. Decode.lean: the decoder, total on any bytes of any format and rejecting by name, and after it the encoder,
both written from the encoding tables of 30_encoding.md (R90 to R94, R102); then the reading of a word of
opcode_table.json.
-/

namespace Sys2Proof

/-- Why a word is no instruction. -/
inductive DecodeError where
  /-- a byte on the 3-bit operation port has a bit above bit 2 (R90) -/
  | hostopBitsAbove (b : Byte)
  /-- a byte on the 5-bit request port has a bit above bit 4 (R94) -/
  | trreqBitsAbove (b : Byte)
  /-- request kind `11` is never issued (R94) -/
  | kindNeverIssued (len : BitVec 3)
  /-- a kind with a length it is never issued with (R94; 20_memory.md R70) -/
  | lengthNeverIssued (kind : TrKind) (len : BitVec 3)
  /-- the bytes are none of the three commands (R93) -/
  | unknownCommand (bytes : List Byte)
  /-- the number of bytes is not the format's (R98) -/
  | wrongLength (format : Format) (n : Nat)
deriving DecidableEq, Repr

/-- `tr_req_kind[1:0]` (30_encoding.md R94). -/
def TrKind.code : TrKind → BitVec 2
  | .open => 0b00#2
  | .write => 0b01#2
  | .read => 0b10#2

/-- The kind a code stands for; `11` is never issued (30_encoding.md R94). -/
def kindOfCode (c : BitVec 2) : Option TrKind :=
  if c = 0b00#2 then some .open
  else if c = 0b01#2 then some .write
  else if c = 0b10#2 then some .read
  else none

/-- The bytes of a command, first byte first (30_encoding.md R93). -/
def cmdBytes : WireCmd → List Byte
  | .init => [0xBE#8, 0x08#8, 0x00#8]
  | .trigger => [0xAC#8, 0x33#8, 0x00#8]
  | .softReset => [0xBA#8]

/-- The operation an operation code selects (30_encoding.md R91): all eight codes have a row. -/
def decodeHostop (c : OpCode) : Instr :=
  if c = 0b000#3 then .opNone
  else if c = 0b001#3 then .opInit
  else if c = 0b010#3 then .opGetTemperature
  else if c = 0b011#3 then .opGetHumidity
  else if c = 0b100#3 then .opGetAll
  else if c = 0b101#3 then .opSoftReset
  else if c = 0b110#3 then .opReserved6
  else .opReserved7

/-- The request a pair of kind and length selects (30_encoding.md R94): five of the 32 pairs. -/
def decodeTrreq (kind : BitVec 2) (len : BitVec 3) : Except DecodeError Instr :=
  match kindOfCode kind with
  | none => .error (.kindNeverIssued len)
  | some .open =>
    if len = 0b000#3 then .ok .trOpen else .error (.lengthNeverIssued .open len)
  | some .write =>
    if len = 0b001#3 then .ok .trWrite1
    else if len = 0b011#3 then .ok .trWrite3
    else .error (.lengthNeverIssued .write len)
  | some .read =>
    if len = 0b001#3 then .ok .trRead1
    else if len = 0b111#3 then .ok .trRead7
    else .error (.lengthNeverIssued .read len)

/-- The command a sequence of write bytes is (30_encoding.md R93, R102). -/
def decodeCommand (bytes : List Byte) : Except DecodeError Instr :=
  if bytes = cmdBytes .init then .ok .cmdInit
  else if bytes = cmdBytes .trigger then .ok .cmdTrigger
  else if bytes = cmdBytes .softReset then .ok .cmdSoftReset
  else .error (.unknownCommand bytes)

/-- One byte on the 3-bit operation port. -/
def decodeHostopByte (b : Byte) : Except DecodeError Instr :=
  if b.extractLsb' 3 5 = 0#5 then .ok (decodeHostop (b.extractLsb' 0 3)) else .error (.hostopBitsAbove b)

/-- One byte on the 5-bit request port: kind in bits 4:3, length in bits 2:0 (R94). -/
def decodeTrreqByte (b : Byte) : Except DecodeError Instr :=
  if b.extractLsb' 5 3 = 0#3 then decodeTrreq (b.extractLsb' 3 2) (b.extractLsb' 0 3)
  else .error (.trreqBitsAbove b)

/-- THE DECODER: total on any bytes of any format, rejecting by name. -/
def decode (f : Format) (bytes : List Byte) : Except DecodeError Instr :=
  if bytes.length = f.byteCount then
    match f with
    | .hostop => decodeHostopByte (bytes.headD 0#8)
    | .trreq => decodeTrreqByte (bytes.headD 0#8)
    | .wire1 => decodeCommand bytes
    | .wire3 => decodeCommand bytes
  else .error (.wrongLength f bytes.length)

/-- A 3-bit operation code in the low bits of a byte. -/
def hostopByte (c : OpCode) : Byte := c.setWidth 8

/-- The pair `{tr_req_kind, tr_req_len}` in the low bits of a byte (30_encoding.md R94). -/
def trreqByte (kind : TrKind) (len : BitVec 3) : Byte := (kind.code ++ len).setWidth 8

/-- THE ENCODER: the word of each instruction, from the tables of R91, R93 and R94. -/
def encode : Instr → Encoded
  | .opNone => ⟨.hostop, [hostopByte 0b000#3]⟩
  | .opInit => ⟨.hostop, [hostopByte 0b001#3]⟩
  | .opGetTemperature => ⟨.hostop, [hostopByte 0b010#3]⟩
  | .opGetHumidity => ⟨.hostop, [hostopByte 0b011#3]⟩
  | .opGetAll => ⟨.hostop, [hostopByte 0b100#3]⟩
  | .opSoftReset => ⟨.hostop, [hostopByte 0b101#3]⟩
  | .opReserved6 => ⟨.hostop, [hostopByte 0b110#3]⟩
  | .opReserved7 => ⟨.hostop, [hostopByte 0b111#3]⟩
  | .trOpen => ⟨.trreq, [trreqByte .open 0b000#3]⟩
  | .trWrite1 => ⟨.trreq, [trreqByte .write 0b001#3]⟩
  | .trWrite3 => ⟨.trreq, [trreqByte .write 0b011#3]⟩
  | .trRead1 => ⟨.trreq, [trreqByte .read 0b001#3]⟩
  | .trRead7 => ⟨.trreq, [trreqByte .read 0b111#3]⟩
  | .cmdInit => ⟨.wire3, cmdBytes .init⟩
  | .cmdTrigger => ⟨.wire3, cmdBytes .trigger⟩
  | .cmdSoftReset => ⟨.wire1, cmdBytes .softReset⟩

/-- The bits of a table word as bytes, the first byte most significant (the table writes `CMD_INIT` as `0xBE0800`,
30_encoding.md R93; log 8). -/
def tableBytes (f : Format) (w : Nat) : List Byte :=
  match f with
  | .wire3 => [BitVec.ofNat 8 (w / 65536), BitVec.ofNat 8 (w / 256), BitVec.ofNat 8 w]
  | .hostop => [BitVec.ofNat 8 w]
  | .trreq => [BitVec.ofNat 8 w]
  | .wire1 => [BitVec.ofNat 8 w]

/-- The format of a table word. 3, 5 and 24 bits name one format each. A word given in a whole byte may be of three
formats, whose codes are distinct but for 0, which is `OP_NONE` and `TR_OPEN`: it is read as `TR_OPEN`, since an
all-zero operation port "selects nothing" (92 D3; log 7). -/
def tableFormat (nbits w : Nat) : Option Format :=
  if nbits = 3 ∧ w < 8 then some .hostop
  else if nbits = 5 ∧ w < 32 then some .trreq
  else if nbits = 24 ∧ w < 16777216 then some .wire3
  else if nbits = 8 ∧ w < 256 then
    if 1 ≤ w ∧ w ≤ 7 then some .hostop
    else if w < 32 then some .trreq
    else some .wire1
  else none

/-- The instruction the decoder reads from a word of opcode_table.json, numbered as the table numbers it. -/
def decodeTableWord (nbits w : Nat) : Option Instr :=
  match tableFormat nbits w with
  | none => none
  | some f => (decode f (tableBytes f w)).toOption

end Sys2Proof
end

