-- ==== Sys2Proof/Machine/State.lean ====
section
/-!
DEFINITION. Machine/State.lean: everything the spec gives the machine, as plain data (10_state.md), the reasons a step can
stop, and the state right after hardware reset (10_state.md R54).
-/

namespace Sys2Proof.Machine

/-- `seq`, the sequencer's state: the core's program counter (10_state.md R24). The codes are `Seq.code` (R101);
codes 11 to 15 name no state and do not exist here (R25; log 12). -/
inductive Seq where
  /-- no operation in progress -/
  | idle
  /-- open the transport -/
  | initOpen
  /-- read 1 status byte -/
  | initStatus
  /-- write `BE 08 00` -/
  | initWrite
  /-- block 10 ms -/
  | initDelay
  /-- write `AC 33 00` -/
  | measTrigger
  /-- block 80 ms -/
  | measSettle
  /-- read 1 status byte, repeat while busy -/
  | measPoll
  /-- read 7 bytes, then decode and validate -/
  | measFrame
  /-- write `BA` -/
  | rstWrite
  /-- block 20 ms -/
  | rstDelay
deriving DecidableEq, Repr

/-- `sess_state` (10_state.md R37). The codes are `SessState.code` (30_encoding.md R100). -/
inductive SessState where
  | uninitialized
  | ready
  | measuring
  | failed
deriving DecidableEq, Repr

/-- `rsp_status` (10_state.md R42). The codes are `Status.code` (30_encoding.md R99). -/
inductive Status where
  /-- `ST_OK` -/
  | ok
  /-- `ST_IO_ERROR` -/
  | ioError
  /-- `ST_INVALID` -/
  | invalid
  /-- `ST_TIMEOUT` -/
  | timeout
deriving DecidableEq, Repr

/-- The frame buffer: the seven general registers `frame[0]` to `frame[6]` (10_state.md R20, R21). -/
structure Frame where
  /-- the status byte -/
  b0 : Byte
  b1 : Byte
  b2 : Byte
  /-- high nibble humidity, low nibble temperature -/
  b3 : Byte
  b4 : Byte
  b5 : Byte
  /-- the checksum byte -/
  b6 : Byte
deriving DecidableEq, Repr

/-- A transport answer as the trace records it (20_memory.md R67): for a read, the number of bytes and the bytes the
port carries. -/
inductive Answer where
  | ioError
  | okWrite
  | okHandle (h : Handle)
  | okBytes (len : BitVec 4) (bytes : List Byte)
deriving DecidableEq, Repr

/-- The observable events (00_scope.md R11). -/
inductive Event where
  /-- `EvAccept(op)` (43_session_ops.md R170) -/
  | accept (op : OpCode)
  /-- `EvOpen(bus, addr, flags)` (20_memory.md R66) -/
  | open (bus : BusIndex) (addr : BitVec 7) (flags : OpenFlags)
  /-- `EvWrite(h, bytes)` (R66) -/
  | write (h : Handle) (bytes : List Byte)
  /-- `EvRead(h, n)` (R66) -/
  | read (h : Handle) (n : Nat)
  /-- `EvRsp(kind, result)` (R67) -/
  | rsp (kind : TrKind) (result : Answer)
  /-- `EvDelay(ms)` (R74) -/
  | delay (ms : Nat)
  /-- `EvDone(op, status)` (43_session_ops.md R171) -/
  | done (op : OpCode) (status : Status)
deriving DecidableEq, Repr

/-- The whole machine: the registers of 10_state.md, the levels of its inputs, its event trace, and the model's own
fields (the inputs still to come, their counter, the timer's rate). -/
structure State where
  /-- `frame[0]` to `frame[6]` (R20) -/
  frame : Frame
  /-- `seq` (R24) -/
  seq : Seq
  /-- `tr_pending` (R26) -/
  trPending : Bool
  /-- `frame_full` (R27) -/
  frameFull : Bool
  /-- `crc_ok` (R28) -/
  crcOk : Bool
  /-- `has_temp` (R29) -/
  hasTemp : Bool
  /-- `has_hum` (R29) -/
  hasHum : Bool
  /-- `CFG_BUS_INDEX` (R32) -/
  cfgBusIndex : BusIndex
  /-- `CFG_CRC_LENIENT` (R33) -/
  cfgCrcLenient : Bool
  /-- `CFG_POLL_LIMIT` (R34) -/
  cfgPollLimit : PollCount
  /-- `CFG_OPEN_FLAGS` (R35) -/
  cfgOpenFlags : OpenFlags
  /-- `sess_state` (R37) -/
  sessState : SessState
  /-- `handle` (R38) -/
  handle : Handle
  /-- `handle_valid` (R38) -/
  handleValid : Bool
  /-- `cur_op` (R39) -/
  curOp : OpCode
  /-- `poll_cnt` (R40) -/
  pollCnt : PollCount
  /-- `dly_cnt` (R41); a Nat since DLY_W is large enough by definition (log 11) -/
  dlyCnt : Nat
  /-- `rsp_valid` (R42) -/
  rspValid : Bool
  /-- `rsp_status` (R42) -/
  rspStatus : Status
  /-- `RAW_T` (R46) -/
  rawT : Raw20
  /-- `RAW_H` (R47) -/
  rawH : Raw20
  /-- `TEMP_Q20` (R48) -/
  tempQ20 : TempQ20
  /-- `HUM_Q20` (R49) -/
  humQ20 : HumQ20
  /-- the input levels at the coming step (20_memory.md R80, 30_encoding.md R90; log 4) -/
  pins : Pins
  /-- the events since the last hardware reset, oldest first (00_scope.md R11; log 10) -/
  trace : List Event
  /-- MODEL's own: the input levels of the steps after the coming one (log 4) -/
  env : List Pins
  /-- MODEL's own: the counter `Config.freePins` is applied to (log 4) -/
  envCount : Nat
  /-- MODEL's own: TICKS_PER_MS, a positive integer, fixed (00_scope.md R6; log 3) -/
  ticksPerMs : PNat
deriving DecidableEq, Repr

/-- Faults: none. Every outcome of the block is a completion with a status (60_exceptions.md R200), and 93 says that
nothing in it is unpredictable; so the type has no constructor and no step can end in a fault. -/
inductive Fault where
deriving DecidableEq, Repr

/-- Why a step has no meaning. -/
inductive Refusal where
  /-- Raised by `exec`'s arm of an instruction that has no meaning yet: none is left. Safe. -/
  | notModelled (mnemonic : String)
  /-- Raised by `step` if the word the core presents decodes to no instruction: the core presents none such
  (30_encoding.md R94, "never issued"). Safe. -/
  | undecodable (e : DecodeError)
deriving DecidableEq, Repr

/-- Inputs at rest: nothing asserted, straps 0 (log 2, log 5). DESIGN CHOICE. -/
def quietPins : Pins :=
  { reset := false
    straps := { busIndex := 0#Config.busW, crcLenient := false, pollLimit := 0#16, openFlags := 0#Config.flagsW }
    opValid := false
    opCode := 0#3
    rspValid := false
    rspErr := false
    rspLen := 0#4
    rspRdata := 0#56
    rspHandle := 0#Config.handleW
    tick := false }

/-- The machine right after hardware reset: the table of 10_state.md R54, with the straps sampled from `quietPins`
(log 2), the inputs at rest (log 5), and the model's own fields as logs 3, 4 and 10 say. -/
def State.reset : State :=
  { frame := ⟨0#8, 0#8, 0#8, 0#8, 0#8, 0#8, 0#8⟩
    seq := .idle
    trPending := false
    frameFull := false
    crcOk := false
    hasTemp := false
    hasHum := false
    cfgBusIndex := quietPins.straps.busIndex
    cfgCrcLenient := quietPins.straps.crcLenient
    cfgPollLimit := quietPins.straps.pollLimit
    cfgOpenFlags := quietPins.straps.openFlags
    sessState := .uninitialized
    handle := 0#Config.handleW
    handleValid := false
    curOp := 0#3
    pollCnt := 0#16
    dlyCnt := 0
    rspValid := false
    rspStatus := .ok
    rawT := 0#20
    rawH := 0#20
    tempQ20 := 0#29
    humQ20 := 0#27
    pins := quietPins
    trace := []
    env := []
    envCount := 0
    ticksPerMs := ⟨1, Nat.one_pos⟩ }

end Sys2Proof.Machine
end

