-- ==== Sys2Proof/Machine/Operands.lean ====
section
/-!
DEFINITION. Machine/Operands.lean: what the steps read. The constants of 00_scope.md R6, the codes of the named states
(30_encoding.md R99 to R101), the bytes of the frame buffer and of the answer port (20_memory.md R64, R80), the request each
sequencer state issues (30_encoding.md R94), and the host-visible registers (10_state.md R45).
-/

namespace Sys2Proof.Machine

/-- `DEV_ADDR`, the one device address (10_state.md R36). -/
def devAddr : BitVec 7 := 0x38#7

/-- `T_INIT_MS` (00_scope.md R6). -/
def initMs : Nat := 10

/-- `T_SETTLE_MS` (00_scope.md R6). -/
def settleMs : Nat := 80

/-- `T_RESET_MS` (00_scope.md R6). -/
def resetMs : Nat := 20

/-- `FRAME_LEN` (00_scope.md R6). -/
def frameLen : Nat := 7

/-- Sequencer state codes (30_encoding.md R101). -/
def Seq.code : Seq → BitVec 4
  | .idle => 0#4
  | .initOpen => 1#4
  | .initStatus => 2#4
  | .initWrite => 3#4
  | .initDelay => 4#4
  | .measTrigger => 5#4
  | .measSettle => 6#4
  | .measPoll => 7#4
  | .measFrame => 8#4
  | .rstWrite => 9#4
  | .rstDelay => 10#4

/-- Session state codes (30_encoding.md R100). -/
def SessState.code : SessState → BitVec 2
  | .uninitialized => 0#2
  | .ready => 1#2
  | .measuring => 2#2
  | .failed => 3#2

/-- Completion status codes (30_encoding.md R99). -/
def Status.code : Status → BitVec 2
  | .ok => 0#2
  | .ioError => 1#2
  | .invalid => 2#2
  | .timeout => 3#2

/-- The operation codes the steps name (30_encoding.md R91). -/
def codeInit : OpCode := 1#3
/-- `OP_GET_TEMPERATURE` (R91) -/
def codeGetTemperature : OpCode := 2#3
/-- `OP_GET_HUMIDITY` (R91) -/
def codeGetHumidity : OpCode := 3#3
/-- `OP_GET_ALL` (R91) -/
def codeGetAll : OpCode := 4#3
/-- `OP_SOFT_RESET` (R91) -/
def codeSoftReset : OpCode := 5#3

/-! ### The frame buffer -/

/-- The general register `x[i]`, frame-buffer byte `i` (00_scope.md R8). -/
def frameByte (f : Frame) (i : Fin 7) : Byte :=
  match i with
  | 0 => f.b0
  | 1 => f.b1
  | 2 => f.b2
  | 3 => f.b3
  | 4 => f.b4
  | 5 => f.b5
  | 6 => f.b6

/-- The seven bytes in order. -/
def frameBytes (f : Frame) : List Byte := [f.b0, f.b1, f.b2, f.b3, f.b4, f.b5, f.b6]

/-! ### The answer port -/

/-- Byte `i` of the answer: bits `8i+7:8i` of `tr_rsp_rdata` (20_memory.md R80). -/
def answerByte (p : Pins) (i : Nat) : Byte := p.rspRdata.extractLsb' (8 * i) 8

/-- The seven byte lanes of the answer, byte `i` for `frame[i]` (20_memory.md R64). -/
def answerFrame (p : Pins) : Frame :=
  ⟨answerByte p 0, answerByte p 1, answerByte p 2, answerByte p 3, answerByte p 4, answerByte p 5, answerByte p 6⟩

/-- The answer as the trace records it: `IoError`, or what the request's kind yields (20_memory.md R67). A read's bytes
are the first `tr_rsp_len` of the seven the port carries (log 16). -/
def portAnswer (kind : TrKind) (p : Pins) : Answer :=
  if p.rspErr then .ioError
  else
    match kind with
    | .open => .okHandle p.rspHandle
    | .write => .okWrite
    | .read => .okBytes p.rspLen ((frameBytes (answerFrame p)).take p.rspLen.toNat)

/-- A read answered `Ok` with exactly the number of bytes requested (20_memory.md R69). -/
def readOk (n : Nat) (p : Pins) : Bool := !p.rspErr && p.rspLen.toNat == n

/-! ### The request port -/

/-- The command a write state sends (30_encoding.md R94). -/
def seqCommand : Seq → Option WireCmd
  | .initWrite => some .init
  | .measTrigger => some .trigger
  | .rstWrite => some .softReset
  | .idle => none
  | .initOpen => none
  | .initStatus => none
  | .initDelay => none
  | .measSettle => none
  | .measPoll => none
  | .measFrame => none
  | .rstDelay => none

/-- The single request a sequencer state issues (20_memory.md R66, 30_encoding.md R94). -/
def seqRequest (s : State) : Option TrReq :=
  match s.seq with
  | .initOpen => some (.open s.cfgBusIndex devAddr s.cfgOpenFlags)
  | .initStatus => some (.read s.handle 1)
  | .initWrite => some (.write s.handle (cmdBytes .init))
  | .measTrigger => some (.write s.handle (cmdBytes .trigger))
  | .measPoll => some (.read s.handle 1)
  | .measFrame => some (.read s.handle frameLen)
  | .rstWrite => some (.write s.handle (cmdBytes .softReset))
  | .idle => none
  | .initDelay => none
  | .measSettle => none
  | .rstDelay => none

/-- The request port: `tr_req_valid` (and the request with it) exactly in a transport state whose request is not yet
issued (20_memory.md R66, R80; log 13). DESIGN CHOICE, log 18: the port is a function of the registers alone and does not
look at the reset input, so it shows the request also in a step in which reset is asserted, although that step is a hardware
reset, issues nothing and records no event; the spec does not say what `tr_req_valid` is then. -/
def requestPort (s : State) : Option TrReq := if s.trPending then none else seqRequest s

/-- `tr_req_kind` (20_memory.md R80). -/
def reqKind : TrReq → TrKind
  | .open _ _ _ => .open
  | .write _ _ => .write
  | .read _ _ => .read

/-- `tr_req_len`: the number of bytes, 0 for an open (20_memory.md R80). -/
def reqLen : TrReq → BitVec 3
  | .open _ _ _ => 0#3
  | .write _ bytes => BitVec.ofNat 3 bytes.length
  | .read _ n => BitVec.ofNat 3 n

/-- Up to three bytes as port data, byte 0 in bits 7:0 (20_memory.md R80). -/
def packBytes (bytes : List Byte) : BitVec 24 :=
  (bytes.getD 2 0#8) ++ (bytes.getD 1 0#8) ++ (bytes.getD 0 0#8)

/-- `tr_req_wdata` (20_memory.md R80); only a write carries data. -/
def reqWdata : TrReq → Option (BitVec 24)
  | .open _ _ _ => none
  | .write _ bytes => some (packBytes bytes)
  | .read _ _ => none

/-- The event that records the issue of a request (00_scope.md R11). -/
def reqEvent : TrReq → Event
  | .open bus addr flags => .open bus addr flags
  | .write h bytes => .write h bytes
  | .read h n => .read h n

/-! ### Outputs and host-visible registers -/

/-- `busy_out` (10_state.md R43). -/
def busyOut (s : State) : Bool := s.seq != .idle

/-- `op_ready` (10_state.md R43). -/
def opReady (s : State) : Bool := !busyOut s

/-- One bit as a vector, for the register views. -/
def bit (b : Bool) : BitVec 1 := BitVec.ofBool b

/-- Register 0, `STATUS` (10_state.md R45). -/
def regStatus (s : State) : BitVec 16 :=
  0#2 ++ s.curOp ++ bit s.handleValid ++ bit s.frameFull ++ bit s.hasHum ++ bit s.hasTemp ++ bit s.crcOk
    ++ s.sessState.code ++ bit (busyOut s) ++ bit s.rspValid ++ s.rspStatus.code

/-- Register 1, `SEQ` (10_state.md R45). -/
def regSeq (s : State) : BitVec 8 := 0#3 ++ bit s.trPending ++ s.seq.code

/-- Register 6, `FRAME_LO` (10_state.md R45): `frame[0]` in bits 7:0. -/
def regFrameLo (s : State) : BitVec 32 := s.frame.b3 ++ s.frame.b2 ++ s.frame.b1 ++ s.frame.b0

/-- Register 7, `FRAME_HI` (10_state.md R45): `frame[4]` in bits 7:0. -/
def regFrameHi (s : State) : BitVec 24 := s.frame.b6 ++ s.frame.b5 ++ s.frame.b4

/-- Register 9, `CFG` (10_state.md R45). -/
def regCfg (s : State) : BitVec (Config.busW + 1 + 16) := s.cfgBusIndex ++ bit s.cfgCrcLenient ++ s.cfgPollLimit

/-- What the host reads at a register number (10_state.md R45): the register's width and its bits. All are read-only, a
read changes nothing, and no other number is assigned. -/
def readReg (n : Nat) (s : State) : Option ((w : Nat) × BitVec w) :=
  match n with
  | 0 => some ⟨16, regStatus s⟩
  | 1 => some ⟨8, regSeq s⟩
  | 2 => some ⟨20, s.rawH⟩
  | 3 => some ⟨20, s.rawT⟩
  | 4 => some ⟨27, s.humQ20⟩
  | 5 => some ⟨29, s.tempQ20⟩
  | 6 => some ⟨32, regFrameLo s⟩
  | 7 => some ⟨24, regFrameHi s⟩
  | 8 => some ⟨16, s.pollCnt⟩
  | 9 => some ⟨Config.busW + 1 + 16, regCfg s⟩
  | _ => none

end Sys2Proof.Machine
end

