-- ==== Sys2Proof/Machine/Flags.lean ====
section
/-!
DEFINITION. Machine/Flags.lean: the two status-byte flags (10_state.md R30, R31, 30_encoding.md R95), the Checksum Unit
(40_crc8.md), whose result is the flag `crc_ok`, and the comparison behind `Timeout` (42_measurement_fsm.md R154).
-/

namespace Sys2Proof.Machine

/-- The busy flag: bit 7 of a status byte (10_state.md R30). -/
def busyFlag (status : Byte) : Bool := status.getLsbD 7

/-- The calibration-enabled flag: bit 3 of a status byte (10_state.md R31). -/
def calFlag (status : Byte) : Bool := status.getLsbD 3

/-- `CRC_SEED` (00_scope.md R6). -/
def crcSeed : Byte := 0xFF#8

/-- `CRC_POLY` (00_scope.md R6). -/
def crcPoly : Byte := 0x31#8

/-- One shift of the CRC accumulator; the top bit is tested before the shift (40_crc8.md R120, R121). -/
def crcShift (acc : Byte) : Byte := if acc.getLsbD 7 then (acc <<< 1) ^^^ crcPoly else acc <<< 1

/-- `n` shifts. -/
def crcShifts : Nat → Byte → Byte
  | 0, acc => acc
  | n + 1, acc => crcShifts n (crcShift acc)

/-- One byte: XOR it in, then eight shifts (40_crc8.md R121). -/
def crc8Byte (acc d : Byte) : Byte := crcShifts 8 (acc ^^^ d)

/-- The CRC8 of a byte sequence, first byte first (40_crc8.md R120). -/
def crc8 (b : List Byte) : Byte := b.foldl crc8Byte crcSeed

/-- The checksum the first six bytes of a frame call for (40_crc8.md R123). -/
def frameCrc (f : Frame) : Byte := crc8 [f.b0, f.b1, f.b2, f.b3, f.b4, f.b5]

/-- `validate_frame(present, f, lenient)` (40_crc8.md R125). -/
def validateFrame (present : Bool) (f : Frame) (lenient : Bool) : Bool :=
  if !present then false
  else if frameCrc f = f.b6 then true
  else if lenient && f.b6 == 0xFF#8 then true
  else false

/-- The poll bound is reached: `CFG_POLL_LIMIT != 0` and `poll_cnt = CFG_POLL_LIMIT` (42_measurement_fsm.md R154). -/
def pollExhausted (limit count : PollCount) : Bool := limit != 0#16 && count == limit

end Sys2Proof.Machine
end

