-- ==== Sys2Proof/Machine/FrameDecoder.lean ====
section
/-!
DEFINITION. Machine/FrameDecoder.lean: the Frame Decoder (41_frame_decoder.md): two field extractors, two scalers, and the
exact rational values the scaled registers stand for (R139).
-/

namespace Sys2Proof.Machine

/-- `raw_temp(f)`: the 20-bit temperature field; every byte is widened before it is shifted (41_frame_decoder.md R135). -/
def rawTemp (f : Frame) : Raw20 :=
  ((f.b3 &&& 0x0F#8).setWidth 20 <<< 16) ||| (f.b4.setWidth 20 <<< 8) ||| f.b5.setWidth 20

/-- `raw_humidity(f)`: the 20-bit humidity field (41_frame_decoder.md R136). -/
def rawHumidity (f : Frame) : Raw20 :=
  (f.b1.setWidth 20 <<< 12) ||| (f.b2.setWidth 20 <<< 4) ||| ((f.b3 &&& 0xF0#8) >>> 4).setWidth 20

/-- `TEMP_Q20` of a raw field: `raw * 200 - 52428800` in 29 bits (41_frame_decoder.md R137). -/
def scaleTemp (raw : Raw20) : TempQ20 := raw.setWidth 29 * 200#29 - 52428800#29

/-- `HUM_Q20` of a raw field: `raw * 100` in 27 bits (41_frame_decoder.md R138). -/
def scaleHum (raw : Raw20) : HumQ20 := raw.setWidth 27 * 100#27

/-- `decode_temperature(f)` (41_frame_decoder.md R137). -/
def decodeTemperature (f : Frame) : TempQ20 := scaleTemp (rawTemp f)

/-- `decode_humidity(f)` (41_frame_decoder.md R138). -/
def decodeHumidity (f : Frame) : HumQ20 := scaleHum (rawHumidity f)

/-- `T_exact`, degrees Celsius (41_frame_decoder.md R137). -/
def exactTemperature (f : Frame) : ℚ := ((rawTemp f).toNat : ℚ) / 2 ^ 20 * 200 - 50

/-- `H_exact`, percent (41_frame_decoder.md R138). -/
def exactHumidity (f : Frame) : ℚ := ((rawHumidity f).toNat : ℚ) * 100 / 2 ^ 20

end Sys2Proof.Machine
end

