-- ==== Sys2Proof/Machine/Ops.lean ====
section
/-!
DEFINITION. Machine/Ops.lean: the shared operations of the steps: recording an event, accepting, completing and raising
(43_session_ops.md R170, R171, 60_exceptions.md R205), issuing a request and receiving its answer (20_memory.md R66, R67),
writing the frame buffer (10_state.md R22), starting and timing a delay (20_memory.md R74), hardware reset
(70_reset_and_hazards.md R230), and taking the inputs of the next step.
-/

namespace Sys2Proof.Machine

/-- Append an event to the trace (00_scope.md R11). -/
def emit (e : Event) (s : State) : State := { s with trace := s.trace ++ [e] }

/-- The completion step every operation ends in (43_session_ops.md R171). -/
def complete (st : Status) (s : State) : State :=
  emit (.done s.curOp st) { s with rspStatus := st, rspValid := true, seq := .idle, trPending := false }

/-- The outcomes that end an operation early after it has started (60_exceptions.md R201, R204). -/
inductive Raised where
  | ioError
  | timeout
deriving DecidableEq, Repr

/-- The status a raised outcome completes with (60_exceptions.md R200). -/
def raisedStatus : Raised → Status
  | .ioError => .ioError
  | .timeout => .timeout

/-- The session state a raised outcome leaves: `Failed` for `IoError`, `Ready` for `Timeout` (60_exceptions.md R205). -/
def raisedSession : Raised → SessState
  | .ioError => .failed
  | .timeout => .ready

/-- `raise E`, the block's trap entry (60_exceptions.md R205): the session state, then the completion step with the
outcome's code. Nothing is saved, no mask changes, control goes to `IDLE`. There is no return from it (R208): after
`ST_TIMEOUT` the block is idle and `Ready`, after `IoError` only hardware reset leaves `Failed`. -/
def raiseOutcome (e : Raised) (s : State) : State :=
  complete (raisedStatus e) { s with trPending := false, sessState := raisedSession e }

/-- The first part of an acceptance (43_session_ops.md R170). -/
def accept (c : OpCode) (s : State) : State := emit (.accept c) { s with curOp := c, rspValid := false }

/-- An acceptance that is refused: it completes at once with `ST_INVALID` (43_session_ops.md R172, R192,
60_exceptions.md R202). -/
def refuse (c : OpCode) (s : State) : State := complete .invalid (accept c s)

/-- `pc <- q`, with no request issued yet (43_session_ops.md R173, R180, R190; log 14). -/
def enter (q : Seq) (s : State) : State := { s with seq := q, trPending := false }

/-- The acceptance table: which operation code runs in which session state (43_session_ops.md R172). An acceptance in
`Measuring` "cannot occur"; the table's entry for it here is a refusal (log 14). -/
def admits (c : OpCode) : SessState → Bool
  | .uninitialized => c == codeInit
  | .ready => c == codeGetTemperature || c == codeGetHumidity || c == codeGetAll || c == codeSoftReset
  | .measuring => false
  | .failed => false

/-- A host operation (43_session_ops.md R170, R172): unseen while the core is busy, refused where the table refuses it,
else accepted and started. -/
def hostOp (c : OpCode) (start : State → State) (s : State) : State :=
  if busyOut s then s
  else if admits c s.sessState then start (accept c s)
  else refuse c s

/-- The issue step (20_memory.md R66): the state's single request, its event, `tr_pending <- 1`, nothing else. -/
def issueRequest (s : State) : State :=
  match requestPort s with
  | none => s
  | some r => emit (reqEvent r) { s with trPending := true }

/-- What every answer step does first (20_memory.md R67): record the answer, `tr_pending <- 0`. -/
def receiveAnswer (kind : TrKind) (s : State) : State :=
  emit (.rsp kind (portAnswer kind s.pins)) { s with trPending := false }

/-- A transport step: issue the request, or take its answer by the state's answer rule, or wait for the answer
(20_memory.md R66, R67, R68). -/
def transact (answer : State → State) (s : State) : State :=
  if !s.trPending then issueRequest s
  else if s.pins.rspValid then answer s
  else s

/-- A successful status read writes `frame[0]` only and clears `frame_full` (10_state.md R22 (b), R27). -/
def storeStatus (b : Byte) (s : State) : State := { s with frame := { s.frame with b0 := b }, frameFull := false }

/-- A successful frame read writes all seven registers and sets `frame_full` (10_state.md R22 (a), R27). -/
def storeFrame (f : Frame) (s : State) : State := { s with frame := f, frameFull := true }

/-- Entry to a delay state (20_memory.md R74). -/
def startDelay (q : Seq) (ms : Nat) (s : State) : State :=
  emit (.delay ms) { s with seq := q, dlyCnt := ms * s.ticksPerMs.val }

/-- One step in a delay state (20_memory.md R74): the exit rule fires at 0; else a tick counts down (log 11). -/
def delayStep (expire : State → State) (s : State) : State :=
  if s.dlyCnt = 0 then expire s
  else if s.pins.tick then { s with dlyCnt := s.dlyCnt - 1 }
  else s

/-- Hardware reset (70_reset_and_hazards.md R230, 10_state.md R54): every register to its reset value, the straps sampled
from the strap inputs, nothing sent to the sensor; the trace starts anew (log 10). -/
def hardwareReset (s : State) : State :=
  { s with
    frame := ⟨0#8, 0#8, 0#8, 0#8, 0#8, 0#8, 0#8⟩
    seq := .idle
    trPending := false
    frameFull := false
    crcOk := false
    hasTemp := false
    hasHum := false
    cfgBusIndex := s.pins.straps.busIndex
    cfgCrcLenient := s.pins.straps.crcLenient
    cfgPollLimit := s.pins.straps.pollLimit
    cfgOpenFlags := s.pins.straps.openFlags
    sessState := .uninitialized
    handle := 0#Config.handleW
    handleValid := false
    curOp := 0#3
    pollCnt := 0#16
    dlyCnt := 0
    rspValid := false
    rspStatus := .ok
    rawT := 0#20
    rawH := 0#20
    tempQ20 := 0#29
    humQ20 := 0#27
    trace := [] }

/-- The inputs of the next step: the next entry of `env`, or the free value where there is none (log 4). -/
def sampleInputs (s : State) : State :=
  match s.env with
  | p :: rest => { s with pins := p, env := rest }
  | [] => { s with pins := Config.freePins s.envCount, envCount := s.envCount + 1 }

end Sys2Proof.Machine
end

