-- ==== Sys2Proof/Machine/Measurement.lean ====
section
/-!
DEFINITION. Machine/Measurement.lean: the Measurement State Machine (42_measurement_fsm.md), the pseudo-operation `measure`
(30_encoding.md R104), entered when a `get_*` operation is accepted (43_session_ops.md R180).
-/

namespace Sys2Proof.Machine

/-- The operation fills the temperature registers (42_measurement_fsm.md R157). -/
def wantsTemp (op : OpCode) : Bool := op == codeGetTemperature || op == codeGetAll

/-- The operation fills the humidity registers (42_measurement_fsm.md R157). -/
def wantsHum (op : OpCode) : Bool := op == codeGetHumidity || op == codeGetAll

/-- What the acceptance of a measurement clears (43_session_ops.md R180). -/
def clearResults (s : State) : State :=
  { s with
    crcOk := false
    hasTemp := false
    hasHum := false
    rawT := 0#20
    rawH := 0#20
    tempQ20 := 0#29
    humQ20 := 0#27 }

/-- The start of a measurement, after the acceptance (43_session_ops.md R180). -/
def startMeasurement (s : State) : State :=
  enter .measTrigger { clearResults s with sessState := .measuring }

/-- `MEAS_TRIGGER`, answer (42_measurement_fsm.md R151). -/
def answerTrigger (s : State) : State :=
  if s.pins.rspErr then raiseOutcome .ioError (receiveAnswer .write s)
  else startDelay .measSettle settleMs (receiveAnswer .write s)

/-- `MEAS_SETTLE`, the end of the delay (42_measurement_fsm.md R152). -/
def expireSettle (s : State) : State := enter .measPoll { s with pollCnt := 0#16 }

/-- A successful status read is counted, but only when the poll is bounded (10_state.md R40, 42_measurement_fsm.md R154). -/
def countPoll (s : State) : State :=
  { s with pollCnt := if s.cfgPollLimit != 0#16 then s.pollCnt + 1#16 else s.pollCnt }

/-- What a good status byte in `MEAS_POLL` leads to (42_measurement_fsm.md R154, R155). -/
def pollStatus (b : Byte) (s : State) : State :=
  if !busyFlag b then { s with seq := .measFrame }
  else if pollExhausted s.cfgPollLimit s.pollCnt then raiseOutcome .timeout s
  else { s with seq := .measPoll }

/-- `MEAS_POLL`, answer (42_measurement_fsm.md R154). -/
def answerPoll (s : State) : State :=
  if !readOk 1 s.pins then raiseOutcome .ioError (receiveAnswer .read s)
  else pollStatus (answerByte s.pins 0) (countPoll (storeStatus (answerByte s.pins 0) (receiveAnswer .read s)))

/-- The result registers of a measurement, by the operation in progress (42_measurement_fsm.md R157). -/
def storeResults (s : State) : State :=
  { s with
    crcOk := validateFrame true s.frame s.cfgCrcLenient
    rawT := if wantsTemp s.curOp then rawTemp s.frame else s.rawT
    tempQ20 := if wantsTemp s.curOp then decodeTemperature s.frame else s.tempQ20
    hasTemp := if wantsTemp s.curOp then true else s.hasTemp
    rawH := if wantsHum s.curOp then rawHumidity s.frame else s.rawH
    humQ20 := if wantsHum s.curOp then decodeHumidity s.frame else s.humQ20
    hasHum := if wantsHum s.curOp then true else s.hasHum }

/-- Completion of a measurement (42_measurement_fsm.md R157): `ST_OK` whether the checksum is good or bad. -/
def finishMeasurement (s : State) : State := complete .ok { storeResults s with sessState := .ready }

/-- `MEAS_FRAME`, answer (42_measurement_fsm.md R156, R157). -/
def answerFrameRead (s : State) : State :=
  if !readOk frameLen s.pins then raiseOutcome .ioError (receiveAnswer .read s)
  else finishMeasurement (storeFrame (answerFrame s.pins) (receiveAnswer .read s))

/-- `OP_GET_TEMPERATURE` (43_session_ops.md R180, R181). -/
def execOpGetTemperature (s : State) : Host.Outcome State Fault Refusal :=
  .next (hostOp codeGetTemperature startMeasurement s)

/-- `OP_GET_HUMIDITY` (43_session_ops.md R180, R182). -/
def execOpGetHumidity (s : State) : Host.Outcome State Fault Refusal :=
  .next (hostOp codeGetHumidity startMeasurement s)

/-- `OP_GET_ALL` (43_session_ops.md R180, R183). -/
def execOpGetAll (s : State) : Host.Outcome State Fault Refusal :=
  .next (hostOp codeGetAll startMeasurement s)

end Sys2Proof.Machine
end

