-- ==== Sys2Proof/Machine/Session.lean ====
section
/-!
DEFINITION. Machine/Session.lean: the Sensor Session (43_session_ops.md): `init`, `soft_reset`, the reserved codes, and the
delay timer's steps in the three delay states.
-/

namespace Sys2Proof.Machine

/-- The session becomes `Ready` and `init` completes (43_session_ops.md R176, R178). -/
def finishInit (s : State) : State := complete .ok { s with sessState := .ready }

/-- `INIT_OPEN`, answer (43_session_ops.md R175). -/
def answerOpen (s : State) : State :=
  if s.pins.rspErr then raiseOutcome .ioError (receiveAnswer .open s)
  else { receiveAnswer .open s with handle := s.pins.rspHandle, handleValid := true, seq := .initStatus }

/-- What a good status byte in `INIT_STATUS` leads to: only bit 3 is tested (43_session_ops.md R176). -/
def initStatusByte (b : Byte) (s : State) : State :=
  if calFlag b then finishInit s else { s with seq := .initWrite }

/-- `INIT_STATUS`, answer (43_session_ops.md R176). -/
def answerInitStatus (s : State) : State :=
  if !readOk 1 s.pins then raiseOutcome .ioError (receiveAnswer .read s)
  else initStatusByte (answerByte s.pins 0) (storeStatus (answerByte s.pins 0) (receiveAnswer .read s))

/-- `INIT_WRITE`, answer (43_session_ops.md R177). -/
def answerInitWrite (s : State) : State :=
  if s.pins.rspErr then raiseOutcome .ioError (receiveAnswer .write s)
  else startDelay .initDelay initMs (receiveAnswer .write s)

/-- `RST_WRITE`, answer (43_session_ops.md R191). -/
def answerRstWrite (s : State) : State :=
  if s.pins.rspErr then raiseOutcome .ioError (receiveAnswer .write s)
  else startDelay .rstDelay resetMs (receiveAnswer .write s)

/-- `RST_DELAY`, the end of the delay (43_session_ops.md R191): the session is still `Ready`. -/
def expireRst (s : State) : State := complete .ok s

/-- The delay timer's step in a delay state (20_memory.md R74, 43_session_ops.md R178, R191, 42_measurement_fsm.md R152);
in every other state there is nothing for it to do. -/
def timerStep (s : State) : State :=
  match s.seq with
  | .initDelay => delayStep finishInit s
  | .measSettle => delayStep expireSettle s
  | .rstDelay => delayStep expireRst s
  | .idle => s
  | .initOpen => s
  | .initStatus => s
  | .initWrite => s
  | .measTrigger => s
  | .measPoll => s
  | .measFrame => s
  | .rstWrite => s

/-- `OP_NONE`, reserved code 0 (43_session_ops.md R192): the acceptance table has no state in which it runs. -/
def execOpNone (s : State) : Host.Outcome State Fault Refusal := .next (hostOp 0#3 id s)

/-- Reserved code 6 (43_session_ops.md R192). -/
def execOpReserved6 (s : State) : Host.Outcome State Fault Refusal := .next (hostOp 6#3 id s)

/-- Reserved code 7 (43_session_ops.md R192). -/
def execOpReserved7 (s : State) : Host.Outcome State Fault Refusal := .next (hostOp 7#3 id s)

/-- `OP_INIT` (43_session_ops.md R173): accepted in `Uninitialized`, the next step is `INIT_OPEN`. -/
def execOpInit (s : State) : Host.Outcome State Fault Refusal := .next (hostOp codeInit (enter .initOpen) s)

/-- `OP_SOFT_RESET` (43_session_ops.md R190): accepted in `Ready`, the next step is `RST_WRITE`. -/
def execOpSoftReset (s : State) : Host.Outcome State Fault Refusal :=
  .next (hostOp codeSoftReset (enter .rstWrite) s)

end Sys2Proof.Machine
end

