-- ==== Sys2Proof/Machine/Transport.lean ====
section
/-!
DEFINITION. Machine/Transport.lean: the five transport requests (30_encoding.md R94) and the three wire commands (R93). A
request is issued and answered only in the sequencer states of R94; elsewhere the core issues nothing (log 9). A wire
command is the data of a write, so its step is the write's (log 6).
-/

namespace Sys2Proof.Machine

/-- `TR_OPEN`, issued in `INIT_OPEN` (43_session_ops.md R174, R175). -/
def execTrOpen (s : State) : Host.Outcome State Fault Refusal :=
  .next (if s.seq = .initOpen then transact answerOpen s else s)

/-- `TR_WRITE1`, issued in `RST_WRITE` (43_session_ops.md R191). -/
def execTrWrite1 (s : State) : Host.Outcome State Fault Refusal :=
  .next (if s.seq = .rstWrite then transact answerRstWrite s else s)

/-- `TR_WRITE3`, issued in `MEAS_TRIGGER` with `AC 33 00` (42_measurement_fsm.md R150, R151) and in `INIT_WRITE` with
`BE 08 00` (43_session_ops.md R177). -/
def execTrWrite3 (s : State) : Host.Outcome State Fault Refusal :=
  .next (if s.seq = .measTrigger then transact answerTrigger s
    else if s.seq = .initWrite then transact answerInitWrite s
    else s)

/-- `TR_READ1`, the status read of `MEAS_POLL` (42_measurement_fsm.md R153, R154) and of `INIT_STATUS`
(43_session_ops.md R176). -/
def execTrRead1 (s : State) : Host.Outcome State Fault Refusal :=
  .next (if s.seq = .measPoll then transact answerPoll s
    else if s.seq = .initStatus then transact answerInitStatus s
    else s)

/-- `TR_READ7`, the frame read of `MEAS_FRAME` (42_measurement_fsm.md R156, R157). -/
def execTrRead7 (s : State) : Host.Outcome State Fault Refusal :=
  .next (if s.seq = .measFrame then transact answerFrameRead s else s)

/-- `CMD_INIT`, the data of the write of `INIT_WRITE`: sent, and once delivered the 10 ms delay (43_session_ops.md R177). -/
def execCmdInit (s : State) : Host.Outcome State Fault Refusal :=
  .next (if s.seq = .initWrite then transact answerInitWrite s else s)

/-- `CMD_TRIGGER`, the data of the write of `MEAS_TRIGGER`: sent, and once delivered the 80 ms delay
(42_measurement_fsm.md R150, R151). -/
def execCmdTrigger (s : State) : Host.Outcome State Fault Refusal :=
  .next (if s.seq = .measTrigger then transact answerTrigger s else s)

/-- `CMD_SOFT_RESET`, the data of the write of `RST_WRITE`: sent, and once delivered the 20 ms delay
(43_session_ops.md R191). -/
def execCmdSoftReset (s : State) : Host.Outcome State Fault Refusal :=
  .next (if s.seq = .rstWrite then transact answerRstWrite s else s)

end Sys2Proof.Machine
end

