-- ==== Sys2Proof/Machine/Fetch.lean ====
section
/-!
DEFINITION. Machine/Fetch.lean: which word of the table the coming step runs (log 6), and placing a word where the coming
step finds it. The core fetches no program from memory (20_memory.md R78): in `IDLE` the host presents an operation code; in
a transport state the core presents the request it issues; while the request is answered, a write state presents the
command the write carries.
-/

namespace Sys2Proof.Machine

/-- The word of a transport request: `{tr_req_kind, tr_req_len}` (30_encoding.md R94). -/
def requestWord (r : TrReq) : Encoded := ⟨.trreq, [trreqByte (reqKind r) (reqLen r)]⟩

/-- The word of a command (30_encoding.md R93). -/
def commandWord (c : WireCmd) : Encoded :=
  match c with
  | .init => ⟨.wire3, cmdBytes .init⟩
  | .trigger => ⟨.wire3, cmdBytes .trigger⟩
  | .softReset => ⟨.wire1, cmdBytes .softReset⟩

/-- The word of an answer step: the command delivered, or the open or read answered. -/
def answerWord (s : State) : Option Encoded :=
  match seqCommand s.seq with
  | some c => some (commandWord c)
  | none => (seqRequest s).map requestWord

/-- The word the coming step runs: an operation presented in `IDLE` (43_session_ops.md R170), a request being issued
(20_memory.md R66), or a request being answered (R67). None while the core waits for the host or for an answer, and none
in a delay state. -/
def fetchWord (s : State) : Option Encoded :=
  if s.seq = .idle then
    if s.pins.opValid then some ⟨.hostop, [hostopByte s.pins.opCode]⟩ else none
  else if !s.trPending then (requestPort s).map requestWord
  else if s.pins.rspValid then answerWord s
  else none

/-- The host presents an operation code in `IDLE`. -/
def placeOp (c : OpCode) (s : State) : State :=
  { s with seq := .idle, pins := { s.pins with reset := false, opValid := true, opCode := c } }

/-- The sequencer stands before the issue of a state's request. -/
def placeIssue (q : Seq) (s : State) : State :=
  { s with seq := q, trPending := false, pins := { s.pins with reset := false } }

/-- The sequencer stands before the answer to a write state's request. -/
def placeAnswer (q : Seq) (s : State) : State :=
  { s with seq := q, trPending := true, pins := { s.pins with reset := false, rspValid := true } }

/-- Place an instruction where the coming step runs it (log 15). A request that two states issue is placed in the state
of the table's rule: `TR_WRITE3` in `MEAS_TRIGGER` (R150), `TR_READ1` in `MEAS_POLL` (R153). -/
def placeInstr (i : Instr) (s : State) : State :=
  match i with
  | .opNone => placeOp 0#3 s
  | .opInit => placeOp codeInit s
  | .opGetTemperature => placeOp codeGetTemperature s
  | .opGetHumidity => placeOp codeGetHumidity s
  | .opGetAll => placeOp codeGetAll s
  | .opSoftReset => placeOp codeSoftReset s
  | .opReserved6 => placeOp 6#3 s
  | .opReserved7 => placeOp 7#3 s
  | .trOpen => placeIssue .initOpen s
  | .trWrite1 => placeIssue .rstWrite s
  | .trWrite3 => placeIssue .measTrigger s
  | .trRead1 => placeIssue .measPoll s
  | .trRead7 => placeIssue .measFrame s
  | .cmdInit => placeAnswer .initWrite s
  | .cmdTrigger => placeAnswer .measTrigger s
  | .cmdSoftReset => placeAnswer .rstWrite s

/-- A table word placed where the coming step runs it; a word that is no instruction leaves the state as it is. -/
def placeTableWord (s : State) (nbits w : Nat) : State :=
  match decodeTableWord nbits w with
  | some i => placeInstr i s
  | none => s

end Sys2Proof.Machine
end

