-- ==== Sys2Proof/Machine/Dispatch.lean ====
section
/-!
DEFINITION. Machine/Dispatch.lean: one arm per instruction, each one call of its meaning.
-/

namespace Sys2Proof.Machine

def exec (i : Instr) (s : State) : Host.Outcome State Fault Refusal :=
  match i with
  -- HOSTOP (30_encoding.md R91)
  | .opNone => Sys2Proof.Machine.execOpNone s
  | .opInit => Sys2Proof.Machine.execOpInit s
  | .opGetTemperature => Sys2Proof.Machine.execOpGetTemperature s
  | .opGetHumidity => Sys2Proof.Machine.execOpGetHumidity s
  | .opGetAll => Sys2Proof.Machine.execOpGetAll s
  | .opSoftReset => Sys2Proof.Machine.execOpSoftReset s
  | .opReserved6 => Sys2Proof.Machine.execOpReserved6 s
  | .opReserved7 => Sys2Proof.Machine.execOpReserved7 s
  -- TRREQ (30_encoding.md R94)
  | .trOpen => Sys2Proof.Machine.execTrOpen s
  | .trWrite1 => Sys2Proof.Machine.execTrWrite1 s
  | .trWrite3 => Sys2Proof.Machine.execTrWrite3 s
  | .trRead1 => Sys2Proof.Machine.execTrRead1 s
  | .trRead7 => Sys2Proof.Machine.execTrRead7 s
  -- WIRE3, WIRE1 (30_encoding.md R93)
  | .cmdInit => Sys2Proof.Machine.execCmdInit s
  | .cmdTrigger => Sys2Proof.Machine.execCmdTrigger s
  | .cmdSoftReset => Sys2Proof.Machine.execCmdSoftReset s

end Sys2Proof.Machine
end

