-- ==== Sys2Proof/Machine/Step.lean ====
section
/-!
DEFINITION. Machine/Step.lean: one step of the machine under the input levels that `pins` holds (log 4), and placing a word
of the table for the coming step (log 15).
-/

namespace Sys2Proof.Machine

/-- After a step that ends in a next state, the inputs of the following step are taken. -/
def thenSample : Host.Outcome State Fault Refusal → Host.Outcome State Fault Refusal
  | .next s => .next (sampleInputs s)
  | .fault r => .fault r
  | .refused r => .refused r

/-- One step: hardware reset while it is asserted (70_reset_and_hazards.md R230; log 17); else the instruction the core's ports
present (43_session_ops.md R170, 20_memory.md R66, R67); else the delay timer, or waiting (20_memory.md R68, R74). -/
def step (s : State) : Host.Outcome State Fault Refusal :=
  if s.pins.reset then .next (sampleInputs (hardwareReset s))
  else
    match fetchWord s with
    | none => .next (sampleInputs (timerStep s))
    | some e =>
      match decode e.format e.bytes with
      | .ok i => thenSample (exec i s)
      | .error err => .refused (.undecodable err)

/-- The instruction of a table word, placed where the coming step runs it (log 15). -/
def State.withFetchWord (s : State) (nbits w : Nat) : State := placeTableWord s nbits w

end Sys2Proof.Machine
end

