-- ==== Sys2Proof/Safety.lean ====
section
/-!
DEFINITION. Safety.lean: what a safe run is, in the terms the statements use. The state invariants of 10_state.md R53 with
what makes them hold step after step, what the result registers say about the frame buffer, and the language of event
traces (42_measurement_fsm.md R159, 43_session_ops.md R173, R190, R192) as a small automaton over events.
-/

namespace Sys2Proof.Machine

/-- The states in which a measurement is running (10_state.md R53 (b)). -/
def isMeas : Seq → Bool
  | .measTrigger | .measSettle | .measPoll | .measFrame => true
  | .idle | .initOpen | .initStatus | .initWrite | .initDelay | .rstWrite | .rstDelay => false

/-- The states in which `init` is running (10_state.md R53 (d)). -/
def isInit : Seq → Bool
  | .initOpen | .initStatus | .initWrite | .initDelay => true
  | .idle | .measTrigger | .measSettle | .measPoll | .measFrame | .rstWrite | .rstDelay => false

/-- The states in which `soft_reset` is running (10_state.md R53 (e)). -/
def isRst : Seq → Bool
  | .rstWrite | .rstDelay => true
  | .idle | .initOpen | .initStatus | .initWrite | .initDelay | .measTrigger | .measSettle | .measPoll | .measFrame => false

/-- The states that use the transport (10_state.md R26, 30_encoding.md R94). -/
def usesTransport : Seq → Bool
  | .initOpen | .initStatus | .initWrite | .measTrigger | .measPoll | .measFrame | .rstWrite => true
  | .idle | .initDelay | .measSettle | .rstDelay => false

/-- `has_temp` and `has_hum` imply the scaling relations (10_state.md R53 (f)). -/
abbrev ScaledResults (s : State) : Prop :=
  (s.hasTemp = true → s.tempQ20.toInt = (s.rawT.toNat : Int) * 200 - 52428800) ∧
  (s.hasHum = true → s.humQ20.toNat = s.rawH.toNat * 100)

/-- The state invariants (a) to (h) of 10_state.md R53, as they stand there. -/
structure SpecInv (s : State) : Prop where
  /-- (a) -/
  idle_not_pending : s.seq = .idle → s.trPending = false
  /-- (b) -/
  measuring_iff : s.sessState = .measuring ↔ isMeas s.seq = true
  /-- (c) -/
  handle_open : s.sessState = .ready ∨ s.sessState = .measuring → s.handleValid = true
  /-- (d) -/
  init_uninitialized : isInit s.seq = true → s.sessState = .uninitialized
  /-- (e) -/
  rst_ready : isRst s.seq = true → s.sessState = .ready
  /-- (f) -/
  scaled : ScaledResults s
  /-- (g): `rsp_status` holds the status of the last completion (10_state.md R42) -/
  failed_status : s.sessState = .failed → s.rspStatus = .ioError ∨ s.rspStatus = .invalid
  /-- (h) -/
  poll_bounded : s.pollCnt.toNat ≤ s.cfgPollLimit.toNat

/-- The invariant every step keeps: R53 with what it rests on. -/
structure StateInv (s : State) : Prop where
  spec : SpecInv s
  /-- `tr_pending` is 0 in IDLE and in the delay states (10_state.md R26) -/
  pending_transport : s.trPending = true → usesTransport s.seq = true
  /-- after the open of `init` the handle is valid (43_session_ops.md R175) -/
  init_handle : s.seq = .initStatus ∨ s.seq = .initWrite ∨ s.seq = .initDelay → s.handleValid = true
  /-- a poll that goes on has not reached its bound (42_measurement_fsm.md R154) -/
  poll_room : s.seq = .measPoll → s.cfgPollLimit ≠ 0#16 → s.pollCnt.toNat < s.cfgPollLimit.toNat
  /-- `cur_op` is the operation in progress (10_state.md R39) -/
  op_init : isInit s.seq = true → s.curOp = codeInit
  op_meas : isMeas s.seq = true → s.curOp = codeGetTemperature ∨ s.curOp = codeGetHumidity ∨ s.curOp = codeGetAll
  op_rst : isRst s.seq = true → s.curOp = codeSoftReset

/-- The result registers and `crc_ok` describe the frame buffer: a flag that is set speaks of the seven bytes there now, a
register whose flag is clear is 0, and none is set before the first measurement or during one (10_state.md R27 to R29,
R46 to R49, 43_session_ops.md R180). -/
structure ResultsDescribeFrame (s : State) : Prop where
  crc : s.crcOk = true → s.frameFull = true ∧ validateFrame true s.frame s.cfgCrcLenient = true
  temp : s.hasTemp = true → s.frameFull = true ∧ s.rawT = rawTemp s.frame ∧ s.tempQ20 = decodeTemperature s.frame
  hum : s.hasHum = true → s.frameFull = true ∧ s.rawH = rawHumidity s.frame ∧ s.humQ20 = decodeHumidity s.frame
  no_temp : s.hasTemp = false → s.rawT = 0#20 ∧ s.tempQ20 = 0#29
  no_hum : s.hasHum = false → s.rawH = 0#20 ∧ s.humQ20 = 0#27
  none_yet : s.sessState = .uninitialized ∨ s.sessState = .measuring →
    s.crcOk = false ∧ s.hasTemp = false ∧ s.hasHum = false

/-- The answer present on the port is a failure for the request outstanding: `IoError`, or a read of the wrong length
(60_exceptions.md R201, 20_memory.md R69). -/
def answerFails (s : State) : Bool :=
  match s.seq with
  | .initOpen | .initWrite | .measTrigger | .rstWrite => s.pins.rspErr
  | .initStatus | .measPoll => !readOk 1 s.pins
  | .measFrame => !readOk 7 s.pins
  | .idle | .initDelay | .measSettle | .rstDelay => false

/-- What an observer of the events knows of the session when no operation is in progress (43_session_ops.md R193). -/
inductive View where
  /-- no `init` has completed: `Uninitialized` -/
  | fresh
  /-- `Ready`, with the handle the open was answered with -/
  | ready (h : Handle)
  /-- an operation completed with `ST_IO_ERROR`: `Failed` -/
  | failed
deriving DecidableEq, Repr

/-- Where an observer of the events stands in the operation in progress. -/
inductive Phase where
  /-- no operation in progress -/
  | rest (v : View)
  /-- `EvAccept(c)` seen -/
  | accepted (c : OpCode) (v : View)
  /-- `init`: the open is outstanding -/
  | opening
  /-- `init`: the open was answered with a handle -/
  | opened (h : Handle)
  /-- `init`: the status read is outstanding -/
  | checking (h : Handle)
  /-- `init`: the status byte had bit 3 clear -/
  | uncalibrated (h : Handle)
  /-- `init`: the initialize write is outstanding -/
  | arming (h : Handle)
  /-- `init`: the initialize write was answered `Ok` -/
  | armed (h : Handle)
  /-- the trigger write is outstanding -/
  | triggering (c : OpCode) (h : Handle)
  /-- the trigger write was answered `Ok` -/
  | triggered (c : OpCode) (h : Handle)
  /-- the settle delay has started, and `n` status bytes since, every one with bit 7 set: a status read is due -/
  | pollDue (c : OpCode) (h : Handle) (n : Nat)
  /-- a status read is outstanding after `n` busy ones -/
  | polling (c : OpCode) (h : Handle) (n : Nat)
  /-- the last status byte had bit 7 clear -/
  | clear (c : OpCode) (h : Handle)
  /-- the frame read is outstanding -/
  | fetching (c : OpCode) (h : Handle)
  /-- the soft-reset write is outstanding -/
  | resetting (h : Handle)
  /-- the soft-reset write was answered `Ok` -/
  | resetSent (h : Handle)
  /-- only `EvDone(c, st)` may follow, and the session is then as `v` says -/
  | ending (c : OpCode) (st : Status) (v : View)
deriving DecidableEq, Repr

/-- A code of a measurement operation (30_encoding.md R91). -/
def isGet (c : OpCode) : Bool := c == codeGetTemperature || c == codeGetHumidity || c == codeGetAll

/-- The cells "run" of the acceptance table, in the observer's terms (43_session_ops.md R172). -/
def View.runs (c : OpCode) : View → Bool
  | .fresh => c == codeInit
  | .ready _ => isGet c || c == codeSoftReset
  | .failed => false

/-- The end of operation `c` after a failing answer (60_exceptions.md R205). -/
def endFailed (c : OpCode) : Phase := .ending c .ioError .failed

/-- Only a read of `n` bytes with the handle `h` may come: then `q`. -/
def expectRead (h : Handle) (n : Nat) (q : Phase) (e : Event) : Option Phase :=
  match e with
  | .read h' n' => if h' = h ∧ n' = n then some q else none
  | _ => none

/-- Only a delay of `ms` may come: then `q`. -/
def expectDelay (ms : Nat) (q : Phase) (e : Event) : Option Phase :=
  match e with
  | .delay ms' => if ms' = ms then some q else none
  | _ => none

/-- Only the completion of `c` with `st` may come: then the operation is over. -/
def expectDone (c : OpCode) (st : Status) (v : View) (e : Event) : Option Phase :=
  match e with
  | .done c' st' => if c' = c ∧ st' = st then some (.rest v) else none
  | _ => none

/-- Only the answer to a write may come: `Ok` leads to `q`, `IoError` ends operation `c` (60_exceptions.md R205). -/
def expectWriteAnswer (c : OpCode) (q : Phase) (e : Event) : Option Phase :=
  match e with
  | .rsp kind result =>
    if kind = .write ∧ result = .okWrite then some q
    else if kind = .write ∧ result = .ioError then some (endFailed c)
    else none
  | _ => none

/-- What the answer to a read of `n` bytes leads to: with the right number of bytes, `q` of the first; else operation `c`
ends with `IoError` (20_memory.md R69). -/
def afterRead (c : OpCode) (n : BitVec 4) (q : Byte → Phase) (result : Answer) : Option Phase :=
  match result with
  | .okBytes len bytes => if len = n then some (q (bytes.headD 0#8)) else some (endFailed c)
  | .ioError => some (endFailed c)
  | .okWrite => none
  | .okHandle _ => none

/-- Only the answer to a read of `n` bytes may come. -/
def expectReadAnswer (c : OpCode) (n : BitVec 4) (q : Byte → Phase) (e : Event) : Option Phase :=
  match e with
  | .rsp kind result => if kind = .read then afterRead c n q result else none
  | _ => none

/-- What the answer to the open leads to (43_session_ops.md R175). -/
def afterOpen (result : Answer) : Option Phase :=
  match result with
  | .okHandle h => some (.opened h)
  | .ioError => some (endFailed codeInit)
  | .okWrite => none
  | .okBytes _ _ => none

/-- Only the answer to the open may come. -/
def expectOpenAnswer (e : Event) : Option Phase :=
  match e with
  | .rsp kind result => if kind = .open then afterOpen result else none
  | _ => none

/-- What may follow an acceptance: the refusal where the table refuses, else the first request of the operation: the open
with the strapped bus and flags and the fixed address, or the operation's own write on the session's handle
(43_session_ops.md R172, R173, R174, R190, 42_measurement_fsm.md R150). -/
def afterAccept (k : Straps) (c : OpCode) (v : View) (e : Event) : Option Phase :=
  match e with
  | .done c' st => if c' = c ∧ st = .invalid ∧ v.runs c = false then some (.rest v) else none
  | .open bus addr flags =>
    if c = codeInit ∧ v = .fresh ∧ bus = k.busIndex ∧ addr = 0x38#7 ∧ flags = k.openFlags then some .opening else none
  | .write h bytes =>
    if v = .ready h ∧ isGet c = true ∧ bytes = [0xAC#8, 0x33#8, 0x00#8] then some (.triggering c h)
    else if v = .ready h ∧ c = codeSoftReset ∧ bytes = [0xBA#8] then some (.resetting h)
    else none
  | _ => none

/-- What a status byte of the poll leads to after `n` busy ones: bit 7 clear, the frame read; bit 7 set, `Timeout` when
this was the `N`-th read of a bound `N > 0`, else another read (42_measurement_fsm.md R154, R155, R159). -/
def afterPollByte (k : Straps) (c : OpCode) (h : Handle) (n : Nat) (b : Byte) : Phase :=
  if !busyFlag b then .clear c h
  else if k.pollLimit ≠ 0#16 ∧ n + 1 = k.pollLimit.toNat then .ending c .timeout (.ready h)
  else .pollDue c h (n + 1)

/-- What one event makes of a phase, under the straps sampled at reset; `none` where the event may not come there
(42_measurement_fsm.md R159, 43_session_ops.md R173, R190, R192, 60_exceptions.md R205). -/
def nextPhase (k : Straps) (p : Phase) (e : Event) : Option Phase :=
  match p with
  | .rest v =>
    match e with
    | .accept c => some (.accepted c v)
    | _ => none
  | .accepted c v => afterAccept k c v e
  | .opening => expectOpenAnswer e
  | .opened h => expectRead h 1 (.checking h) e
  | .checking h =>
    expectReadAnswer codeInit 1#4 (fun b => if calFlag b then .ending codeInit .ok (.ready h) else .uncalibrated h) e
  | .uncalibrated h =>
    match e with
    | .write h' bytes => if h' = h ∧ bytes = [0xBE#8, 0x08#8, 0x00#8] then some (.arming h) else none
    | _ => none
  | .arming h => expectWriteAnswer codeInit (.armed h) e
  | .armed h => expectDelay 10 (.ending codeInit .ok (.ready h)) e
  | .triggering c h => expectWriteAnswer c (.triggered c h) e
  | .triggered c h => expectDelay 80 (.pollDue c h 0) e
  | .pollDue c h n => expectRead h 1 (.polling c h n) e
  | .polling c h n => expectReadAnswer c 1#4 (afterPollByte k c h n) e
  | .clear c h => expectRead h 7 (.fetching c h) e
  | .fetching c h => expectReadAnswer c 7#4 (fun _ => .ending c .ok (.ready h)) e
  | .resetting h => expectWriteAnswer codeSoftReset (.resetSent h) e
  | .resetSent h => expectDelay 20 (.ending codeSoftReset .ok (.ready h)) e
  | .ending c st v => expectDone c st v e

/-- The phase after a list of events, from a phase; `none` once an event was out of place. -/
def runPhases (k : Straps) : Phase → List Event → Option Phase
  | p, [] => some p
  | p, e :: es =>
    match nextPhase k p e with
    | some q => runPhases k q es
    | none => none

/-- The straps as sampled at the last hardware reset (10_state.md R32 to R35). -/
def sampledStraps (s : State) : Straps :=
  { busIndex := s.cfgBusIndex, crcLenient := s.cfgCrcLenient, pollLimit := s.cfgPollLimit, openFlags := s.cfgOpenFlags }

/-- The session as an observer knows it in an idle state; none in `Measuring`, in which no state is idle (10_state.md
R53 (b)). -/
def idleView (s : State) : Option View :=
  match s.sessState with
  | .uninitialized => some .fresh
  | .ready => some (.ready s.handle)
  | .failed => some .failed
  | .measuring => none

/-- `n` busy status reads agree with the poll counter of a bounded poll, and leave room for another (10_state.md R40). -/
def PollCountFits (s : State) (n : Nat) : Prop :=
  s.cfgPollLimit ≠ 0#16 → s.pollCnt.toNat = n ∧ n < s.cfgPollLimit.toNat

/-- The phases an observer can be in when the machine stands in a state. -/
def phaseFits (s : State) (p : Phase) : Prop :=
  match s.seq, s.trPending with
  | .idle, _ => ∃ v, idleView s = some v ∧ p = .rest v
  | .initOpen, false => p = .accepted codeInit .fresh ∧ s.curOp = codeInit
  | .initOpen, true => p = .opening ∧ s.curOp = codeInit
  | .initStatus, false => p = .opened s.handle ∧ s.curOp = codeInit
  | .initStatus, true => p = .checking s.handle ∧ s.curOp = codeInit
  | .initWrite, false => p = .uncalibrated s.handle ∧ s.curOp = codeInit
  | .initWrite, true => p = .arming s.handle ∧ s.curOp = codeInit
  | .initDelay, _ => p = .ending codeInit .ok (.ready s.handle) ∧ s.curOp = codeInit
  | .measTrigger, false => p = .accepted s.curOp (.ready s.handle) ∧ isGet s.curOp = true
  | .measTrigger, true => p = .triggering s.curOp s.handle
  | .measSettle, _ => p = .pollDue s.curOp s.handle 0
  | .measPoll, false => ∃ n, p = .pollDue s.curOp s.handle n ∧ PollCountFits s n
  | .measPoll, true => ∃ n, p = .polling s.curOp s.handle n ∧ PollCountFits s n
  | .measFrame, false => p = .clear s.curOp s.handle
  | .measFrame, true => p = .fetching s.curOp s.handle
  | .rstWrite, false =>
    p = .accepted codeSoftReset (.ready s.handle) ∧ s.curOp = codeSoftReset ∧ s.sessState = .ready
  | .rstWrite, true => p = .resetting s.handle ∧ s.curOp = codeSoftReset ∧ s.sessState = .ready
  | .rstDelay, _ =>
    p = .ending codeSoftReset .ok (.ready s.handle) ∧ s.curOp = codeSoftReset ∧ s.sessState = .ready

/-- The trace is one the rules allow under the sampled straps, and it stands where the machine stands. -/
def TraceFollowsRules (s : State) : Prop :=
  ∃ p, runPhases (sampledStraps s) (.rest .fresh) s.trace = some p ∧ phaseFits s p

/-- How many requests a trace issues. -/
def requestCount : List Event → Nat
  | [] => 0
  | .open _ _ _ :: es => requestCount es + 1
  | .write _ _ :: es => requestCount es + 1
  | .read _ _ :: es => requestCount es + 1
  | .accept _ :: es => requestCount es
  | .rsp _ _ :: es => requestCount es
  | .delay _ :: es => requestCount es
  | .done _ _ :: es => requestCount es

/-- How many answers a trace holds. -/
def answerCount : List Event → Nat
  | [] => 0
  | .rsp _ _ :: es => answerCount es + 1
  | .open _ _ _ :: es => answerCount es
  | .write _ _ :: es => answerCount es
  | .read _ _ :: es => answerCount es
  | .accept _ :: es => answerCount es
  | .delay _ :: es => answerCount es
  | .done _ _ :: es => answerCount es

/-- A run is safe when each of its states keeps the invariant, its results describe its frame, and its trace follows the
rules. -/
def Safe (s : State) : Prop := StateInv s ∧ ResultsDescribeFrame s ∧ TraceFollowsRules s

end Sys2Proof.Machine
end

