-- ==== Sys2Proof/Certificates/Slice0/Obligations.lean ====
section
/-!
DEFINITION. Certificates/Slice0/Obligations.lean: the statements for the provers. Each docstring names the rule of spec/ it
formalises. A statement about an instruction's result gives the whole next state, so it is also its frame and says that the
instruction completes there.
-/

namespace Sys2Proof.Spec

open Sys2Proof.Machine

/-! ### States and tables the statements speak of, written from the rules -/

/-- One shift of rule R121, as the rule writes it. -/
def crcShiftOfRule (a : Byte) : Byte := (a <<< 1) ^^^ (if a.getLsbD 7 then 0x31#8 else 0x00#8)

/-- The cells of the acceptance table of 43_session_ops.md R172 that say "run". -/
def runsIn (c : OpCode) (ss : SessState) : Prop :=
  (c = 1#3 ∧ ss = .uninitialized) ∨ ((c = 2#3 ∨ c = 3#3 ∨ c = 4#3 ∨ c = 5#3) ∧ ss = .ready)

/-- The state after a measurement operation with code `c` was accepted. -/
def measurementStarted (c : OpCode) (s : State) : State :=
  { s with curOp := c, rspValid := false, sessState := .measuring, crcOk := false, hasTemp := false, hasHum := false,
           rawT := 0#20, rawH := 0#20, tempQ20 := 0#29, humQ20 := 0#27, seq := .measTrigger,
           trPending := false, trace := s.trace ++ [.accept c] }

/-- What `raise IoError` makes of a state whose request of kind `k` was answered (60_exceptions.md R205): the answer is
recorded, the session is `Failed`, the operation completes with `ST_IO_ERROR`, and nothing else changes. -/
def ioErrorRaised (k : TrKind) (s : State) : State :=
  { s with trPending := false, sessState := .failed, seq := .idle, rspStatus := .ioError, rspValid := true,
           trace := s.trace ++ [.rsp k (portAnswer k s.pins), .done s.curOp .ioError] }

/-- The state after a write was answered `Ok` and its delay has started. -/
def delayStarted (q : Seq) (ms : Nat) (s : State) : State :=
  { s with trPending := false, seq := q, dlyCnt := ms * s.ticksPerMs.val,
           trace := s.trace ++ [.rsp .write .okWrite, .delay ms] }

/-- The state after a good status byte was stored and counted in `MEAS_POLL`. -/
def statusPolled (s : State) : State :=
  { s with trPending := false, frame := { s.frame with b0 := answerByte s.pins 0 }, frameFull := false,
           pollCnt := if s.cfgPollLimit = 0#16 then s.pollCnt else s.pollCnt + 1#16,
           trace := s.trace ++ [.rsp .read (.okBytes 1#4 [answerByte s.pins 0])] }

/-- The state after a good frame answer was stored, validated and decoded, and the measurement has completed. -/
def measurementCompleted (s : State) : State :=
  { s with
    trPending := false
    frame := answerFrame s.pins
    frameFull := true
    crcOk := validateFrame true (answerFrame s.pins) s.cfgCrcLenient
    rawT := if s.curOp = 2#3 ∨ s.curOp = 4#3 then rawTemp (answerFrame s.pins) else s.rawT
    tempQ20 := if s.curOp = 2#3 ∨ s.curOp = 4#3 then decodeTemperature (answerFrame s.pins) else s.tempQ20
    hasTemp := if s.curOp = 2#3 ∨ s.curOp = 4#3 then true else s.hasTemp
    rawH := if s.curOp = 3#3 ∨ s.curOp = 4#3 then rawHumidity (answerFrame s.pins) else s.rawH
    humQ20 := if s.curOp = 3#3 ∨ s.curOp = 4#3 then decodeHumidity (answerFrame s.pins) else s.humQ20
    hasHum := if s.curOp = 3#3 ∨ s.curOp = 4#3 then true else s.hasHum
    sessState := .ready
    seq := .idle
    rspStatus := .ok
    rspValid := true
    trace := s.trace ++ [.rsp .read (.okBytes 7#4 (frameBytes (answerFrame s.pins))), .done s.curOp .ok] }

/-- The input levels of one busy round of the poll: one step in which the read is issued, one in which it is answered with a
status byte whose bit 7 is set. -/
def busyRound (r : Pins × Pins) : Prop :=
  r.1.reset = false ∧ r.2.reset = false ∧ r.2.rspValid = true ∧ r.2.rspErr = false ∧ r.2.rspLen = 1#4 ∧
    (answerByte r.2 0).getLsbD 7 = true

/-- The events of one busy round. -/
def busyEvents (h : Handle) (r : Pins × Pins) : List Event :=
  [.read h 1, .rsp .read (.okBytes 1#4 [answerByte r.2 0])]

end Sys2Proof.Spec

open Sys2Proof Sys2Proof.Machine Sys2Proof.Spec

/-! ### Encodings -/

/-- 30_encoding.md R91, R93, R94, R102: a word decodes to an instruction exactly when it is the instruction's own word, so
every instruction has one word, every other word is rejected, and decoding an encoded instruction gives it back. -/
def Obligations.DecodeInvertsEncode : Prop :=
  ∀ (f : Format) (bytes : List Byte) (i : Instr), decode f bytes = .ok i ↔ encode i = ⟨f, bytes⟩

/-- 30_encoding.md R102: the words the decoder accepts are the codes the table assigns, format by format, written there as
numbers (log 8 for the order of a command's bytes). -/
def Obligations.AcceptedWordsAreAssigned : Prop :=
  ∀ (f : Format) (bytes : List Byte), (decode f bytes).toOption.isSome = true ↔ (Encoded.mk f bytes).wf = true

/-- 30_encoding.md R91, R93, R94: words written out bit by bit from the tables decode to their rows. -/
def Obligations.WrittenWordsDecode : Prop :=
  decode .hostop [0b00000001#8] = .ok .opInit ∧
  decode .hostop [0b00000100#8] = .ok .opGetAll ∧
  decode .hostop [0b00000111#8] = .ok .opReserved7 ∧
  decode .trreq [0b00000000#8] = .ok .trOpen ∧
  decode .trreq [0b00001001#8] = .ok .trWrite1 ∧
  decode .trreq [0b00010111#8] = .ok .trRead7 ∧
  decode .wire3 [0b10101100#8, 0b00110011#8, 0b00000000#8] = .ok .cmdTrigger ∧
  decode .wire1 [0b10111010#8] = .ok .cmdSoftReset

/-- 30_encoding.md R94: the request port takes exactly the five codes of the table, each in its states and with its
data; kind `11` is never issued. That the port shows the request also where the reset input is asserted is the model's choice
(log 18, DESIGN CHOICE), no rule of the spec. -/
def Obligations.RequestPortFollowsTable : Prop :=
  ∀ s : State, s.trPending = false →
    match s.seq with
    | .initOpen => ∃ r, requestPort s = some r ∧ r = .open s.cfgBusIndex 0x38#7 s.cfgOpenFlags ∧
        (reqKind r).code ++ reqLen r = 0b00000#5 ∧ reqWdata r = none
    | .initStatus => ∃ r, requestPort s = some r ∧ r = .read s.handle 1 ∧
        (reqKind r).code ++ reqLen r = 0b10001#5 ∧ reqWdata r = none
    | .initWrite => ∃ r, requestPort s = some r ∧ r = .write s.handle [0xBE#8, 0x08#8, 0x00#8] ∧
        (reqKind r).code ++ reqLen r = 0b01011#5 ∧ reqWdata r = some 0x0008BE#24
    | .measTrigger => ∃ r, requestPort s = some r ∧ r = .write s.handle [0xAC#8, 0x33#8, 0x00#8] ∧
        (reqKind r).code ++ reqLen r = 0b01011#5 ∧ reqWdata r = some 0x0033AC#24
    | .measPoll => ∃ r, requestPort s = some r ∧ r = .read s.handle 1 ∧
        (reqKind r).code ++ reqLen r = 0b10001#5 ∧ reqWdata r = none
    | .measFrame => ∃ r, requestPort s = some r ∧ r = .read s.handle 7 ∧
        (reqKind r).code ++ reqLen r = 0b10111#5 ∧ reqWdata r = none
    | .rstWrite => ∃ r, requestPort s = some r ∧ r = .write s.handle [0xBA#8] ∧
        (reqKind r).code ++ reqLen r = 0b01001#5 ∧ reqWdata r = some 0x0000BA#24
    | .idle | .initDelay | .measSettle | .rstDelay => requestPort s = none

/-! ### The Checksum Unit and the Frame Decoder -/

/-- 40_crc8.md R120 (and R121, the spec's own reading of it): one byte is XORed in and then shifted eight times, the top bit
tested before each shift; `crc8` folds that over the bytes from the seed 0xFF; the worked examples of both rules. -/
def Obligations.CrcFoldsTheByteStep : Prop :=
  (∀ acc d : Byte, crc8Byte acc d = crcShiftOfRule^[8] (acc ^^^ d)) ∧
  (∀ b : List Byte, crc8 b = b.foldl crc8Byte 0xFF#8) ∧
  crc8Byte 0xFF#8 0x1C#8 = 0x92#8 ∧
  crc8 [0x1C#8, 0x00#8, 0x00#8, 0x00#8, 0x00#8, 0x00#8] = 0x58#8

/-- 40_crc8.md R122 (b), (c), (d): appending, self-check, linearity. -/
def Obligations.CrcAlgebra : Prop :=
  (∀ b c : List Byte, crc8 (b ++ c) = c.foldl crc8Byte (crc8 b)) ∧
  (∀ b : List Byte, crc8 (b ++ [crc8 b]) = 0x00#8) ∧
  (∀ b c : List Byte, b.length = c.length →
    crc8 b ^^^ crc8 c ^^^ crc8 (List.replicate b.length 0#8) = crc8 (List.zipWith (· ^^^ ·) b c))

/-- 40_crc8.md R125: a frame is valid exactly when it is present and its last byte is the CRC of the six before it, or is
0xFF under the lenient policy. -/
def Obligations.FrameValidity : Prop :=
  ∀ (present : Bool) (f : Frame) (lenient : Bool),
    validateFrame present f lenient = true ↔
      present = true ∧ (crc8 [f.b0, f.b1, f.b2, f.b3, f.b4, f.b5] = f.b6 ∨ (lenient = true ∧ f.b6 = 0xFF#8))

/-- 41_frame_decoder.md R135, R136: the two 20-bit fields are concatenations of the frame's bytes and nibbles, byte 3 split
between them; both worked examples. -/
def Obligations.FieldsAreConcatenations : Prop :=
  (∀ f : Frame, rawTemp f = (f.b3.extractLsb' 0 4 ++ f.b4 ++ f.b5 : BitVec 20)) ∧
  (∀ f : Frame, rawHumidity f = (f.b1 ++ f.b2 ++ f.b3.extractLsb' 4 4 : BitVec 20)) ∧
  (∀ f : Frame, f.b3 = 0x25#8 → f.b4 = 0xCD#8 → f.b5 = 0x26#8 → (rawTemp f).toNat = 380198) ∧
  (∀ f : Frame, f.b1 = 0x65#8 → f.b2 = 0xB4#8 → f.b3 = 0x25#8 → (rawHumidity f).toNat = 416578)

/-- 41_frame_decoder.md R137, R138: the scaled registers hold `raw * 200 - 52428800` and `raw * 100` with no overflow, and
are exactly `2^20` times the temperature and the humidity. -/
def Obligations.ScalingIsExact : Prop :=
  ∀ f : Frame,
    (decodeTemperature f).toInt = ((rawTemp f).toNat : Int) * 200 - 52428800 ∧
    exactTemperature f = ((decodeTemperature f).toInt : ℚ) / 2 ^ 20 ∧
    exactTemperature f = ((rawTemp f).toNat : ℚ) / 2 ^ 20 * 200 - 50 ∧
    (decodeHumidity f).toNat = (rawHumidity f).toNat * 100 ∧
    exactHumidity f = ((decodeHumidity f).toNat : ℚ) / 2 ^ 20 ∧
    exactHumidity f = ((rawHumidity f).toNat : ℚ) * 100 / 2 ^ 20 ∧
    -52428800 ≤ (decodeTemperature f).toInt ∧ (decodeTemperature f).toInt ≤ 157286200 ∧
    (decodeHumidity f).toNat ≤ 104857500 ∧
    ((decodeTemperature f).toInt < 0 ↔ (rawTemp f).toNat < 262144)

/-- 41_frame_decoder.md R142: the fields, the status byte and the checksum byte are a bijection with the frame; the status
and checksum bytes influence no decoded value; both scalers are strictly increasing. -/
def Obligations.FrameBitsUsedOnce : Prop :=
  (∀ f g : Frame, rawTemp f = rawTemp g → rawHumidity f = rawHumidity g → f.b0 = g.b0 → f.b6 = g.b6 → f = g) ∧
  (∀ (rt rh : Raw20) (st ck : Byte), ∃ f : Frame, rawTemp f = rt ∧ rawHumidity f = rh ∧ f.b0 = st ∧ f.b6 = ck) ∧
  (∀ (f : Frame) (b : Byte), decodeTemperature { f with b6 := b } = decodeTemperature f ∧
    decodeHumidity { f with b6 := b } = decodeHumidity f) ∧
  (∀ (f : Frame) (b : Byte), decodeTemperature { f with b0 := b } = decodeTemperature f ∧
    decodeHumidity { f with b0 := b } = decodeHumidity f) ∧
  (∀ f g : Frame, (rawTemp f).toNat < (rawTemp g).toNat →
    (decodeTemperature f).toInt < (decodeTemperature g).toInt) ∧
  (∀ f g : Frame, (rawHumidity f).toNat < (rawHumidity g).toNat →
    (decodeHumidity f).toNat < (decodeHumidity g).toNat)

/-! ### Acceptance of host operations -/

/-- 43_session_ops.md R172: the acceptance table. A cell "run" leads to the operation's first step; a cell "refuse"
completes at once with `ST_INVALID` and changes no other register. `Measuring` cannot be seen by an acceptance. -/
def Obligations.AcceptanceTable : Prop :=
  ∀ (c : OpCode) (s : State), s.seq = .idle → s.sessState ≠ .measuring →
    (runsIn c s.sessState → ∃ t, exec (decodeHostop c) s = .next t ∧ t.curOp = c ∧ t.trPending = false ∧
      t.trace = s.trace ++ [.accept c] ∧
      t.seq = (if c = 1#3 then Seq.initOpen else if c = 5#3 then Seq.rstWrite else Seq.measTrigger)) ∧
    (¬ runsIn c s.sessState → exec (decodeHostop c) s =
      .next { s with curOp := c, rspValid := true, rspStatus := .invalid, trPending := false,
                     trace := s.trace ++ [.accept c, .done c .invalid] })

/-- 43_session_ops.md R192: the reserved codes 0, 6 and 7 are accepted and refused in one step in every session state;
nothing else changes. -/
def Obligations.ReservedCodesRefuse : Prop :=
  ∀ s : State, s.seq = .idle →
    exec .opNone s = .next { s with curOp := 0#3, rspValid := true, rspStatus := .invalid, trPending := false,
                                    trace := s.trace ++ [.accept 0#3, .done 0#3 .invalid] } ∧
    exec .opReserved6 s = .next { s with curOp := 6#3, rspValid := true, rspStatus := .invalid, trPending := false,
                                         trace := s.trace ++ [.accept 6#3, .done 6#3 .invalid] } ∧
    exec .opReserved7 s = .next { s with curOp := 7#3, rspValid := true, rspStatus := .invalid, trPending := false,
                                         trace := s.trace ++ [.accept 7#3, .done 7#3 .invalid] }

/-- 43_session_ops.md R170, R173: `OP_INIT` accepted in `Uninitialized`: the next step is `INIT_OPEN`; results, flags, frame
and session state stay. -/
def Obligations.InitStarts : Prop :=
  ∀ s : State, s.seq = .idle → s.sessState = .uninitialized →
    exec .opInit s = .next { s with curOp := 1#3, rspValid := false, seq := .initOpen, trPending := false,
                                    trace := s.trace ++ [.accept 1#3] }

/-- 43_session_ops.md R180: the acceptance of a measurement operation in `Ready` clears the results and enters
`MEAS_TRIGGER`; the frame buffer stays. -/
def Obligations.MeasurementsStart : Prop :=
  ∀ s : State, s.seq = .idle → s.sessState = .ready →
    exec .opGetTemperature s = .next (measurementStarted 2#3 s) ∧
    exec .opGetHumidity s = .next (measurementStarted 3#3 s) ∧
    exec .opGetAll s = .next (measurementStarted 4#3 s)

/-- 43_session_ops.md R170, R190: `OP_SOFT_RESET` accepted in `Ready`: the next step is `RST_WRITE`; the session stays
`Ready`, frame, flags and results stay. -/
def Obligations.SoftResetStarts : Prop :=
  ∀ s : State, s.seq = .idle → s.sessState = .ready →
    exec .opSoftReset s = .next { s with curOp := 5#3, rspValid := false, seq := .rstWrite, trPending := false,
                                         trace := s.trace ++ [.accept 5#3] }

/-- 70_reset_and_hazards.md R245: an operation presented while the core is busy is not seen, neither queued nor
remembered; the code present when the core is in `IDLE` is accepted. -/
def Obligations.BusyCoreSeesNoOperation : Prop :=
  (∀ (s : State) (v : Bool) (c : OpCode), s.seq ≠ .idle →
    step { s with pins := { s.pins with opValid := v, opCode := c } } = step s) ∧
  (∀ (s : State) (c : OpCode), s.seq ≠ .idle → exec (decodeHostop c) s = .next s) ∧
  (∀ s : State, s.pins.reset = false → s.seq = .idle → s.pins.opValid = true →
    step s = thenSample (exec (decodeHostop s.pins.opCode) s))

/-- 10_state.md R43: `busy_out` is 1 when `seq != IDLE`, `op_ready` is its complement, and an operation is accepted only
when `op_ready = 1`. -/
def Obligations.AcceptsOnlyWhenReady : Prop :=
  (∀ s : State, (busyOut s = true ↔ s.seq ≠ .idle) ∧ opReady s = !busyOut s) ∧
  (∀ (s t : State) (c : OpCode) (post : List Event), step s = .next t → t.trace = s.trace ++ .accept c :: post →
    opReady s = true ∧ s.pins.opValid = true ∧ s.pins.opCode = c)

/-! ### Transport steps -/

/-- 20_memory.md R66, 42_measurement_fsm.md R150, R153, 43_session_ops.md R174: the issue step of every transport state:
the state's request is recorded, `tr_pending <- 1`, and nothing else changes. -/
def Obligations.IssueSteps : Prop :=
  ∀ s : State, s.trPending = false →
    (s.seq = .initOpen → exec .trOpen s =
      .next { s with trPending := true, trace := s.trace ++ [.open s.cfgBusIndex 0x38#7 s.cfgOpenFlags] }) ∧
    (s.seq = .initStatus → exec .trRead1 s =
      .next { s with trPending := true, trace := s.trace ++ [.read s.handle 1] }) ∧
    (s.seq = .initWrite → exec .trWrite3 s =
      .next { s with trPending := true, trace := s.trace ++ [.write s.handle [0xBE#8, 0x08#8, 0x00#8]] }) ∧
    (s.seq = .measTrigger → exec .trWrite3 s =
      .next { s with trPending := true, trace := s.trace ++ [.write s.handle [0xAC#8, 0x33#8, 0x00#8]] }) ∧
    (s.seq = .measPoll → exec .trRead1 s =
      .next { s with trPending := true, trace := s.trace ++ [.read s.handle 1] }) ∧
    (s.seq = .measFrame → exec .trRead7 s =
      .next { s with trPending := true, trace := s.trace ++ [.read s.handle 7] }) ∧
    (s.seq = .rstWrite → exec .trWrite1 s =
      .next { s with trPending := true, trace := s.trace ++ [.write s.handle [0xBA#8]] })

/-- 43_session_ops.md R175: the answer to the open. -/
def Obligations.OpenAnswered : Prop :=
  ∀ s : State, s.seq = .initOpen → s.trPending = true → s.pins.rspValid = true →
    (s.pins.rspErr = true → exec .trOpen s = .next (ioErrorRaised .open s)) ∧
    (s.pins.rspErr = false → exec .trOpen s =
      .next { s with trPending := false, handle := s.pins.rspHandle, handleValid := true, seq := .initStatus,
                     trace := s.trace ++ [.rsp .open (.okHandle s.pins.rspHandle)] })

/-- 43_session_ops.md R176: the status read of `init`, issue and answer; only bit 3 decides. -/
def Obligations.InitStatusRead : Prop :=
  (∀ s : State, s.seq = .initStatus → s.trPending = false → exec .trRead1 s =
    .next { s with trPending := true, trace := s.trace ++ [.read s.handle 1] }) ∧
  (∀ s : State, s.seq = .initStatus → s.trPending = true → s.pins.rspValid = true →
    ((s.pins.rspErr = true ∨ s.pins.rspLen ≠ 1#4) → exec .trRead1 s = .next (ioErrorRaised .read s)) ∧
    (s.pins.rspErr = false → s.pins.rspLen = 1#4 → (answerByte s.pins 0).getLsbD 3 = true → exec .trRead1 s =
      .next { s with trPending := false, frame := { s.frame with b0 := answerByte s.pins 0 }, frameFull := false,
                     sessState := .ready, seq := .idle, rspStatus := .ok, rspValid := true,
                     trace := s.trace ++ [.rsp .read (.okBytes 1#4 [answerByte s.pins 0]), .done s.curOp .ok] }) ∧
    (s.pins.rspErr = false → s.pins.rspLen = 1#4 → (answerByte s.pins 0).getLsbD 3 = false → exec .trRead1 s =
      .next { s with trPending := false, frame := { s.frame with b0 := answerByte s.pins 0 }, frameFull := false,
                     seq := .initWrite,
                     trace := s.trace ++ [.rsp .read (.okBytes 1#4 [answerByte s.pins 0])] }))

/-- 43_session_ops.md R177: the initialize write, issue and answer. That the request row `TR_WRITE3` and the command
`CMD_INIT` it carries both stand for the answer step is the model's choice (log 6, DESIGN CHOICE), no rule of the spec. -/
def Obligations.InitializeWrite : Prop :=
  (∀ s : State, s.seq = .initWrite → s.trPending = false →
    exec .trWrite3 s =
      .next { s with trPending := true, trace := s.trace ++ [.write s.handle [0xBE#8, 0x08#8, 0x00#8]] }) ∧
  (∀ s : State, s.seq = .initWrite → s.trPending = true → s.pins.rspValid = true →
    (s.pins.rspErr = true → exec .cmdInit s = .next (ioErrorRaised .write s) ∧
      exec .trWrite3 s = .next (ioErrorRaised .write s)) ∧
    (s.pins.rspErr = false → exec .cmdInit s = .next (delayStarted .initDelay 10 s) ∧
      exec .trWrite3 s = .next (delayStarted .initDelay 10 s)))

/-- 42_measurement_fsm.md R151: the answer to the trigger write. That the request row `TR_WRITE3` and the command
`CMD_TRIGGER` it carries both stand for the answer step is the model's choice (log 6, DESIGN CHOICE), no rule of the spec. -/
def Obligations.TriggerAnswered : Prop :=
  ∀ s : State, s.seq = .measTrigger → s.trPending = true → s.pins.rspValid = true →
    (s.pins.rspErr = true → exec .cmdTrigger s = .next (ioErrorRaised .write s) ∧
      exec .trWrite3 s = .next (ioErrorRaised .write s)) ∧
    (s.pins.rspErr = false → exec .cmdTrigger s = .next (delayStarted .measSettle 80 s) ∧
      exec .trWrite3 s = .next (delayStarted .measSettle 80 s))

/-- 43_session_ops.md R191: `RST_WRITE` and `RST_DELAY`. Two clauses are the model's, no rule of the spec: that the request
row `TR_WRITE1` and the command `CMD_SOFT_RESET` it carries both stand for the answer step (log 6, DESIGN CHOICE), and that
the exit of the delay is a step of its own after the tick that reached 0 (log 11, DEDUCED). -/
def Obligations.SoftResetSteps : Prop :=
  (∀ s : State, s.seq = .rstWrite → s.trPending = false →
    exec .trWrite1 s = .next { s with trPending := true, trace := s.trace ++ [.write s.handle [0xBA#8]] }) ∧
  (∀ s : State, s.seq = .rstWrite → s.trPending = true → s.pins.rspValid = true →
    (s.pins.rspErr = true → exec .cmdSoftReset s = .next (ioErrorRaised .write s) ∧
      exec .trWrite1 s = .next (ioErrorRaised .write s)) ∧
    (s.pins.rspErr = false → exec .cmdSoftReset s = .next (delayStarted .rstDelay 20 s) ∧
      exec .trWrite1 s = .next (delayStarted .rstDelay 20 s))) ∧
  (∀ s : State, s.seq = .rstDelay → s.pins.reset = false →
    (0 < s.dlyCnt → s.pins.tick = true → step s = .next (sampleInputs { s with dlyCnt := s.dlyCnt - 1 })) ∧
    (0 < s.dlyCnt → s.pins.tick = false → step s = .next (sampleInputs s)) ∧
    (s.dlyCnt = 0 → step s = .next (sampleInputs
      { s with seq := .idle, rspStatus := .ok, rspValid := true, trPending := false,
               trace := s.trace ++ [.done s.curOp .ok] })))

/-- 43_session_ops.md R178: `INIT_DELAY`: counted down per tick; at 0 the session is `Ready` and `init` completes. That the
exit is a step of its own after the tick that reached 0 is the model's reading (log 11, DEDUCED), no rule of the spec. -/
def Obligations.InitDelayStep : Prop :=
  ∀ s : State, s.seq = .initDelay → s.pins.reset = false →
    (0 < s.dlyCnt → s.pins.tick = true → step s = .next (sampleInputs { s with dlyCnt := s.dlyCnt - 1 })) ∧
    (0 < s.dlyCnt → s.pins.tick = false → step s = .next (sampleInputs s)) ∧
    (s.dlyCnt = 0 → step s = .next (sampleInputs
      { s with sessState := .ready, seq := .idle, rspStatus := .ok, rspValid := true, trPending := false,
               trace := s.trace ++ [.done s.curOp .ok] }))

/-- 42_measurement_fsm.md R152: `MEAS_SETTLE`: counted down per tick, nothing else happens before 0; at 0 the poll counter is
cleared and the poll begins. That the exit is a step of its own after the tick that reached 0 is the model's reading (log 11,
DEDUCED), no rule of the spec. -/
def Obligations.SettleStep : Prop :=
  ∀ s : State, s.seq = .measSettle → s.pins.reset = false →
    (0 < s.dlyCnt → s.pins.tick = true → step s = .next (sampleInputs { s with dlyCnt := s.dlyCnt - 1 })) ∧
    (0 < s.dlyCnt → s.pins.tick = false → step s = .next (sampleInputs s)) ∧
    (s.dlyCnt = 0 → step s = .next (sampleInputs { s with pollCnt := 0#16, seq := .measPoll, trPending := false }))

/-- 42_measurement_fsm.md R154: the answer to a status read of the poll: `IoError` or a wrong length raises; bit 7 clear goes
on to the frame read; bit 7 set raises `Timeout` at the bound and otherwise repeats. -/
def Obligations.PollAnswered : Prop :=
  ∀ s : State, s.seq = .measPoll → s.trPending = true → s.pins.rspValid = true →
    ((s.pins.rspErr = true ∨ s.pins.rspLen ≠ 1#4) → exec .trRead1 s = .next (ioErrorRaised .read s)) ∧
    (s.pins.rspErr = false → s.pins.rspLen = 1#4 →
      ((answerByte s.pins 0).getLsbD 7 = false →
        exec .trRead1 s = .next { statusPolled s with seq := .measFrame }) ∧
      ((answerByte s.pins 0).getLsbD 7 = true → s.cfgPollLimit ≠ 0#16 → s.pollCnt + 1#16 = s.cfgPollLimit →
        exec .trRead1 s = .next { statusPolled s with
          sessState := .ready, seq := .idle, rspStatus := .timeout, rspValid := true,
          trace := s.trace ++ [.rsp .read (.okBytes 1#4 [answerByte s.pins 0]), .done s.curOp .timeout] }) ∧
      ((answerByte s.pins 0).getLsbD 7 = true → (s.cfgPollLimit = 0#16 ∨ s.pollCnt + 1#16 ≠ s.cfgPollLimit) →
        exec .trRead1 s = .next (statusPolled s)))

/-- 42_measurement_fsm.md R156, R157: the frame read, issue and answer; on a good answer the whole frame is stored,
validated and decoded in the same step, and the operation completes with `ST_OK` whether the checksum is good or bad. -/
def Obligations.FrameReadCompletes : Prop :=
  (∀ s : State, s.seq = .measFrame → s.trPending = false →
    exec .trRead7 s = .next { s with trPending := true, trace := s.trace ++ [.read s.handle 7] }) ∧
  (∀ s : State, s.seq = .measFrame → s.trPending = true → s.pins.rspValid = true →
    ((s.pins.rspErr = true ∨ s.pins.rspLen ≠ 7#4) → exec .trRead7 s = .next (ioErrorRaised .read s)) ∧
    (s.pins.rspErr = false → s.pins.rspLen = 7#4 → exec .trRead7 s = .next (measurementCompleted s)))

/-- 20_memory.md R69: a read answered with `IoError` or with another number of bytes than requested writes no frame register,
leaves `frame_full` unchanged and raises `IoError`. -/
def Obligations.FailedReadsStoreNothing : Prop :=
  ∀ s : State, s.pins.reset = false → s.trPending = true → s.pins.rspValid = true →
    (((s.seq = .initStatus ∨ s.seq = .measPoll) ∧ (s.pins.rspErr = true ∨ s.pins.rspLen.toNat ≠ 1)) ∨
      (s.seq = .measFrame ∧ (s.pins.rspErr = true ∨ s.pins.rspLen.toNat ≠ 7))) →
    step s = .next (sampleInputs (ioErrorRaised .read s))

/-- 30_encoding.md R94, the model's log 9: a request or command whose state the sequencer is not in is not issued there, and
nothing happens. The model's choice for steps the core never takes. -/
def Obligations.UnselectedRequestsDoNothing : Prop :=
  ∀ s : State,
    (s.seq ≠ .initOpen → exec .trOpen s = .next s) ∧
    (s.seq ≠ .rstWrite → exec .trWrite1 s = .next s ∧ exec .cmdSoftReset s = .next s) ∧
    (s.seq ≠ .measTrigger → s.seq ≠ .initWrite → exec .trWrite3 s = .next s) ∧
    (s.seq ≠ .measPoll → s.seq ≠ .initStatus → exec .trRead1 s = .next s) ∧
    (s.seq ≠ .measFrame → exec .trRead7 s = .next s) ∧
    (s.seq ≠ .initWrite → exec .cmdInit s = .next s) ∧
    (s.seq ≠ .measTrigger → exec .cmdTrigger s = .next s)

/-! ### The step -/

/-- A step runs the decoded instruction: when no reset is asserted and the word the core presents decodes to `i`, the step
is `exec i`, and then the inputs of the next step are taken; when the core presents no word, the step is the delay
timer's (which leaves every state but the delay states as it is). The model's log 4 and log 6. -/
def Obligations.StepRunsDecoded : Prop :=
  (∀ (s : State) (e : Encoded) (i : Instr), s.pins.reset = false → fetchWord s = some e →
    decode e.format e.bytes = .ok i →
    step s = match exec i s with
      | .next t => .next (sampleInputs t)
      | .fault r => .fault r
      | .refused r => .refused r) ∧
  (∀ s : State, s.pins.reset = false → fetchWord s = none → step s = .next (sampleInputs (timerStep s)))

/-- A word of opcode_table.json placed by `withFetchWord` is what the very next step runs. Where each row is placed is the
model's choice (log 15, DESIGN CHOICE), and so is that the 8-bit word 0 is `TR_OPEN`, while `OP_NONE` is the 3-bit word 0
(log 7, DESIGN CHOICE); neither is a rule of the spec. -/
def Obligations.PlacedWordsRun : Prop :=
  ∀ s : State,
    (∀ p ∈ [(3, 0, Instr.opNone), (8, 1, .opInit), (8, 2, .opGetTemperature), (8, 3, .opGetHumidity), (8, 4, .opGetAll),
        (8, 5, .opSoftReset), (8, 6, .opReserved6), (8, 7, .opReserved7), (8, 0x00, .trOpen), (8, 0x09, .trWrite1),
        (8, 0x0B, .trWrite3), (8, 0x11, .trRead1), (8, 0x17, .trRead7), (24, 0xBE0800, .cmdInit),
        (24, 0xAC3300, .cmdTrigger), (8, 0xBA, .cmdSoftReset)],
      decodeTableWord p.1 p.2.1 = some p.2.2 ∧
      step (s.withFetchWord p.1 p.2.1) = thenSample (exec p.2.2 (s.withFetchWord p.1 p.2.1)))

/-- 93 (closing paragraph of part 1): no step of the core is undefined: every state has a next state, whatever the inputs. -/
def Obligations.StepAlwaysAnswers : Prop := ∀ s : State, ∃ t, step s = .next t

/-- 10_state.md R54, 70_reset_and_hazards.md R230: while reset is asserted, a step gives every register its value of the
table, the straps sampled from their inputs. -/
def Obligations.ResetGivesTableValues : Prop :=
  ∀ s : State, s.pins.reset = true → ∃ t, step s = .next t ∧
    t.frame = ⟨0x00#8, 0x00#8, 0x00#8, 0x00#8, 0x00#8, 0x00#8, 0x00#8⟩ ∧ t.seq = .idle ∧ t.trPending = false ∧
    t.frameFull = false ∧ t.crcOk = false ∧ t.hasTemp = false ∧ t.hasHum = false ∧ t.sessState = .uninitialized ∧
    t.handle = 0 ∧ t.handleValid = false ∧ t.curOp = 0 ∧ t.pollCnt = 0 ∧ t.dlyCnt = 0 ∧ t.rspValid = false ∧
    t.rspStatus = .ok ∧ t.rawT = 0 ∧ t.rawH = 0 ∧ t.tempQ20 = 0 ∧ t.humQ20 = 0 ∧
    t.cfgBusIndex = s.pins.straps.busIndex ∧ t.cfgCrcLenient = s.pins.straps.crcLenient ∧
    t.cfgPollLimit = s.pins.straps.pollLimit ∧ t.cfgOpenFlags = s.pins.straps.openFlags

/-- `State.reset` is what a hardware reset leaves: the registers at the values of 10_state.md R54, the straps at the inputs
the model names (log 2), no operation presented (log 5), no event since (log 10). The model's choices where the logs say. -/
def Obligations.ResetStateIsAfterReset : Prop :=
  (∀ s : State, hardwareReset s =
    { State.reset with
      cfgBusIndex := s.pins.straps.busIndex, cfgCrcLenient := s.pins.straps.crcLenient,
      cfgPollLimit := s.pins.straps.pollLimit, cfgOpenFlags := s.pins.straps.openFlags,
      pins := s.pins, env := s.env, envCount := s.envCount, ticksPerMs := s.ticksPerMs }) ∧
  regStatus State.reset = 0x0000#16 ∧ regSeq State.reset = 0x00#8 ∧ State.reset.trace = []

/-- 70_reset_and_hazards.md R230, the clause "does nothing until an operation is presented": in `IDLE` with no operation and
no reset a step changes nothing but the inputs; no request is issued. -/
def Obligations.IdleDoesNothing : Prop :=
  ∀ s : State, s.seq = .idle → s.pins.reset = false → s.pins.opValid = false → step s = .next (sampleInputs s)

/-- 70_reset_and_hazards.md R232, the clause on a late answer: with no request outstanding, what the answer port carries has
no influence on the step. -/
def Obligations.LateAnswersIgnored : Prop :=
  ∀ (s : State) (v e : Bool) (n : BitVec 4) (d : BitVec 56) (h : Handle), s.trPending = false →
    step { s with pins := { s.pins with rspValid := v, rspErr := e, rspLen := n, rspRdata := d, rspHandle := h } } = step s

/-! ### Rules of the whole machine -/

/-- The invariant and its companions hold right after every hardware reset, `State.reset` among them. -/
def Obligations.ResetIsSafe : Prop :=
  (StateInv State.reset ∧ ResultsDescribeFrame State.reset ∧ TraceFollowsRules State.reset) ∧
  (∀ s : State, StateInv (hardwareReset s) ∧ ResultsDescribeFrame (hardwareReset s) ∧ TraceFollowsRules (hardwareReset s))

/-- Every step keeps the invariants of 10_state.md R53 with what they rest on, from every state that has them. -/
def Obligations.StepKeepsInvariant : Prop :=
  ∀ s t : State, StateInv s → step s = .next t → StateInv t

/-- 10_state.md R53: (a) to (h) hold after every step of every run from a hardware reset, whatever the host, the transport
and the timer do. -/
def Obligations.SpecInvariantsAfterEveryStep : Prop :=
  ∀ (s t : State) (n : Nat), Host.Core.run Sys2Proof.core n (hardwareReset s) = .next t → SpecInv t

/-- 10_state.md R27 to R29, R46 to R49, 43_session_ops.md R180: every step keeps that the results describe the frame buffer:
`crc_ok`, `has_temp`, `has_hum` speak of the bytes in it, and a register without its flag is 0. -/
def Obligations.StepKeepsResultsTrue : Prop :=
  ∀ s t : State, StateInv s → ResultsDescribeFrame s → step s = .next t → ResultsDescribeFrame t

/-- 42_measurement_fsm.md R159, 43_session_ops.md R172, R173, R174, R190, R192, 60_exceptions.md R205: every step keeps that
the event trace is one the rules allow under the sampled straps. An acceptance is followed by the refusal exactly where the
table refuses; the open is on the strapped bus, at address 0x38, with the strapped flags, once; every write and read is on
the handle that open was answered with; no write but the operation's own; no status read before the settle delay; with a
bound `N > 0` at most `N` status reads, `N` busy bytes followed by the completion with `ST_TIMEOUT` and no other cause of
it, and none without a bound; the frame read once, after a clear status byte; a failing answer followed by the completion
with `ST_IO_ERROR`, after which every operation is refused. -/
def Obligations.StepKeepsTraceRules : Prop :=
  ∀ s t : State, TraceFollowsRules s → step s = .next t → TraceFollowsRules t

/-- 20_memory.md R68, R75: requests and answers alternate: at every state of a run the requests issued are the answers
received, and one more exactly while `tr_pending` is 1. -/
def Obligations.OneRequestOutstanding : Prop :=
  ∀ s t : State, StateInv s → step s = .next t →
    requestCount s.trace = answerCount s.trace + (if s.trPending then 1 else 0) →
    requestCount t.trace = answerCount t.trace + (if t.trPending then 1 else 0)

/-- 43_session_ops.md R193: the session state diagram. Without reset a step changes the session state only as the diagram
says, with the event it names; the status of a completion determines the state; reset leads to `Uninitialized`. -/
def Obligations.SessionDiagram : Prop :=
  (∀ s t : State, s.pins.reset = true → step s = .next t → t.sessState = .uninitialized) ∧
  (∀ s t : State, StateInv s → s.pins.reset = false → step s = .next t →
    (t.sessState = s.sessState ∨
      (s.sessState = .uninitialized ∧ t.sessState = .ready ∧ ∃ pre, t.trace = s.trace ++ pre ++ [.done 1#3 .ok]) ∨
      (s.sessState = .uninitialized ∧ t.sessState = .failed ∧
        ∃ pre, t.trace = s.trace ++ pre ++ [.done 1#3 .ioError]) ∨
      (s.sessState = .ready ∧ t.sessState = .measuring ∧
        ∃ c, isGet c = true ∧ t.trace = s.trace ++ [.accept c]) ∨
      (s.sessState = .measuring ∧ t.sessState = .ready ∧
        ∃ c pre, isGet c = true ∧
          (t.trace = s.trace ++ pre ++ [.done c .ok] ∨ t.trace = s.trace ++ pre ++ [.done c .timeout])) ∨
      (s.sessState = .measuring ∧ t.sessState = .failed ∧
        ∃ c pre, isGet c = true ∧ t.trace = s.trace ++ pre ++ [.done c .ioError]) ∨
      (s.sessState = .ready ∧ t.sessState = .failed ∧ ∃ pre, t.trace = s.trace ++ pre ++ [.done 5#3 .ioError])) ∧
    (∀ (c : OpCode) (st : Status) (pre : List Event), t.trace = s.trace ++ pre ++ [.done c st] →
      match st with
      | .ok => t.sessState = .ready
      | .ioError => t.sessState = .failed
      | .timeout => t.sessState = .ready
      | .invalid => t.sessState = s.sessState))

/-- 60_exceptions.md R208: `Failed` is terminal: without reset every step stays there, in `IDLE`; an operation is refused
with `ST_INVALID` and no transport request is issued. -/
def Obligations.FailedIsTerminal : Prop :=
  ∀ s t : State, StateInv s → s.sessState = .failed → s.pins.reset = false → step s = .next t →
    t.sessState = .failed ∧ t.seq = .idle ∧ t.handle = s.handle ∧ t.handleValid = s.handleValid ∧
    ((s.pins.opValid = false ∧ t.trace = s.trace ∧ t.rspStatus = s.rspStatus) ∨
     (s.pins.opValid = true ∧ t.rspStatus = .invalid ∧
      t.trace = s.trace ++ [.accept s.pins.opCode, .done s.pins.opCode .invalid]))

/-- 60_exceptions.md R201, 20_memory.md R69: a step takes the session to `Failed` exactly when the answer to the outstanding
request is `IoError` or a read of the wrong length; the causes are listed state by state. -/
def Obligations.IoErrorCauses : Prop :=
  ∀ s t : State, s.pins.reset = false → s.sessState ≠ .failed → step s = .next t →
    (t.sessState = .failed ↔
      s.trPending = true ∧ s.pins.rspValid = true ∧
        (((s.seq = .initOpen ∨ s.seq = .initWrite ∨ s.seq = .measTrigger ∨ s.seq = .rstWrite) ∧ s.pins.rspErr = true) ∨
         ((s.seq = .initStatus ∨ s.seq = .measPoll) ∧ (s.pins.rspErr = true ∨ s.pins.rspLen.toNat ≠ 1)) ∨
         (s.seq = .measFrame ∧ (s.pins.rspErr = true ∨ s.pins.rspLen.toNat ≠ 7))))

/-- 42_measurement_fsm.md R155, 60_exceptions.md R204: `Timeout` comes exactly from a busy status byte whose read reaches a
bound that is not 0; the session is then `Ready` and no frame read is issued. -/
def Obligations.TimeoutCause : Prop :=
  ∀ s t : State, s.pins.reset = false → step s = .next t →
    ((∃ pre, t.trace = s.trace ++ pre ++ [.done s.curOp .timeout]) ↔
      s.seq = .measPoll ∧ s.trPending = true ∧ s.pins.rspValid = true ∧ s.pins.rspErr = false ∧ s.pins.rspLen = 1#4 ∧
        (answerByte s.pins 0).getLsbD 7 = true ∧ s.cfgPollLimit ≠ 0#16 ∧ s.pollCnt + 1#16 = s.cfgPollLimit) ∧
    ((∃ pre, t.trace = s.trace ++ pre ++ [.done s.curOp .timeout]) →
      t.seq = .idle ∧ t.sessState = .ready ∧ t.rspStatus = .timeout ∧ t.rspValid = true ∧
      t.rawT = s.rawT ∧ t.rawH = s.rawH ∧ t.tempQ20 = s.tempQ20 ∧ t.humQ20 = s.humQ20 ∧
      t.hasTemp = s.hasTemp ∧ t.hasHum = s.hasHum ∧ t.crcOk = s.crcOk)

/-- 60_exceptions.md R205: what a raised outcome leaves. A step that takes the session to `Failed` is an answer step: it
records the answer, drops `tr_pending`, completes with `ST_IO_ERROR` and changes nothing else; a step that completes with
`Timeout` is the answer step of the poll: it stores and counts its good status byte, then the same with `Ready` and
`ST_TIMEOUT`. -/
def Obligations.RaisedOutcomesEndTheOperation : Prop :=
  (∀ s t : State, s.pins.reset = false → s.sessState ≠ .failed → step s = .next t → t.sessState = .failed →
    s.trPending = true ∧ ∃ k, t = sampleInputs (ioErrorRaised k s)) ∧
  (∀ s t : State, s.pins.reset = false → step s = .next t →
    (∃ pre, t.trace = s.trace ++ pre ++ [.done s.curOp .timeout]) →
    s.trPending = true ∧ t = sampleInputs { statusPolled s with
      sessState := .ready, seq := .idle, rspStatus := .timeout, rspValid := true,
      trace := s.trace ++ [.rsp .read (.okBytes 1#4 [answerByte s.pins 0]), .done s.curOp .timeout] })

/-- 70_reset_and_hazards.md R244, 42_measurement_fsm.md R161: a measurement that completes with `ST_IO_ERROR` or `ST_TIMEOUT`
leaves the four result registers, both `has_*` flags and `crc_ok` at 0. -/
def Obligations.FailedMeasurementLeavesNoResult : Prop :=
  ∀ (s t : State) (c : OpCode) (st : Status) (pre : List Event), StateInv s → ResultsDescribeFrame s →
    s.pins.reset = false → step s = .next t → isGet c = true → (st = .ioError ∨ st = .timeout) →
    t.trace = s.trace ++ pre ++ [.done c st] →
    t.rawT = 0#20 ∧ t.rawH = 0#20 ∧ t.tempQ20 = 0#29 ∧ t.humQ20 = 0#27 ∧
    t.hasTemp = false ∧ t.hasHum = false ∧ t.crcOk = false

/-- 10_state.md R22: the frame buffer is written by exactly two kinds of event: a successful 7-byte read writes all seven
registers in arrival order, a successful 1-byte read writes `frame[0]` only, and every other step without reset writes none
of them (reset: R54). With R27's `frame_full` beside each. -/
def Obligations.FrameBufferWriters : Prop :=
  ∀ s t : State, s.pins.reset = false → step s = .next t →
    (s.trPending = true → s.pins.rspValid = true → s.seq = .measFrame → s.pins.rspErr = false → s.pins.rspLen = 7#4 →
      (∀ i : Fin 7, frameByte t.frame i = answerByte s.pins i.val) ∧ t.frameFull = true) ∧
    (s.trPending = true → s.pins.rspValid = true → (s.seq = .measPoll ∨ s.seq = .initStatus) →
      s.pins.rspErr = false → s.pins.rspLen = 1#4 →
      frameByte t.frame 0 = answerByte s.pins 0 ∧
      (∀ i : Fin 7, i ≠ 0 → frameByte t.frame i = frameByte s.frame i) ∧ t.frameFull = false) ∧
    (¬ (s.trPending = true ∧ s.pins.rspValid = true ∧ s.pins.rspErr = false ∧
        ((s.seq = .measFrame ∧ s.pins.rspLen = 7#4) ∨
         ((s.seq = .measPoll ∨ s.seq = .initStatus) ∧ s.pins.rspLen = 1#4))) →
      t.frame = s.frame ∧ t.frameFull = s.frameFull)

/-- 10_state.md R32 to R35, R38, 00_scope.md R6: no operation changes a strap register or the timer's rate; the handle is
written by a successful open only, and nothing but reset clears `handle_valid`. -/
def Obligations.StrapsAndHandleStay : Prop :=
  ∀ s t : State, step s = .next t → t.ticksPerMs = s.ticksPerMs ∧
    (s.pins.reset = false →
      t.cfgBusIndex = s.cfgBusIndex ∧ t.cfgCrcLenient = s.cfgCrcLenient ∧ t.cfgPollLimit = s.cfgPollLimit ∧
      t.cfgOpenFlags = s.cfgOpenFlags ∧
      ((t.handle = s.handle ∧ t.handleValid = s.handleValid) ∨
       (s.seq = .initOpen ∧ s.trPending = true ∧ s.pins.rspValid = true ∧ s.pins.rspErr = false ∧
        t.handle = s.pins.rspHandle ∧ t.handleValid = true)))

/-- 43_session_ops.md R190, 70_reset_and_hazards.md R231: the steps of `soft_reset`, its acceptance included, change no frame
byte, flag or result. -/
def Obligations.SoftResetLeavesResults : Prop :=
  ∀ s t : State, s.pins.reset = false → step s = .next t →
    (s.seq = .rstWrite ∨ s.seq = .rstDelay ∨ (s.seq = .idle ∧ s.pins.opValid = true ∧ s.pins.opCode = 5#3)) →
    t.frame = s.frame ∧ t.frameFull = s.frameFull ∧ t.crcOk = s.crcOk ∧ t.hasTemp = s.hasTemp ∧ t.hasHum = s.hasHum ∧
    t.rawT = s.rawT ∧ t.rawH = s.rawH ∧ t.tempQ20 = s.tempQ20 ∧ t.humQ20 = s.humQ20 ∧
    t.handle = s.handle ∧ t.handleValid = s.handleValid ∧ t.pollCnt = s.pollCnt

/-- 10_state.md R45: the host-visible registers, field by field; other numbers are not assigned. -/
def Obligations.HostRegisterFields : Prop :=
  ∀ s : State,
    (regStatus s).extractLsb' 0 2 = s.rspStatus.code ∧
    (regStatus s).getLsbD 2 = s.rspValid ∧
    (regStatus s).getLsbD 3 = busyOut s ∧
    (regStatus s).extractLsb' 4 2 = s.sessState.code ∧
    (regStatus s).getLsbD 6 = s.crcOk ∧
    (regStatus s).getLsbD 7 = s.hasTemp ∧
    (regStatus s).getLsbD 8 = s.hasHum ∧
    (regStatus s).getLsbD 9 = s.frameFull ∧
    (regStatus s).getLsbD 10 = s.handleValid ∧
    (regStatus s).extractLsb' 11 3 = s.curOp ∧
    (regStatus s).extractLsb' 14 2 = 0#2 ∧
    (regSeq s).extractLsb' 0 4 = s.seq.code ∧
    (regSeq s).getLsbD 4 = s.trPending ∧
    (regSeq s).extractLsb' 5 3 = 0#3 ∧
    (regFrameLo s).extractLsb' 0 8 = s.frame.b0 ∧
    (regFrameLo s).extractLsb' 8 8 = s.frame.b1 ∧
    (regFrameLo s).extractLsb' 16 8 = s.frame.b2 ∧
    (regFrameLo s).extractLsb' 24 8 = s.frame.b3 ∧
    (regFrameHi s).extractLsb' 0 8 = s.frame.b4 ∧
    (regFrameHi s).extractLsb' 8 8 = s.frame.b5 ∧
    (regFrameHi s).extractLsb' 16 8 = s.frame.b6 ∧
    (regCfg s).extractLsb' 0 16 = s.cfgPollLimit ∧
    (regCfg s).getLsbD 16 = s.cfgCrcLenient ∧
    (regCfg s).extractLsb' 17 Config.busW = s.cfgBusIndex ∧
    readReg 0 s = some ⟨16, regStatus s⟩ ∧ readReg 1 s = some ⟨8, regSeq s⟩ ∧
    readReg 2 s = some ⟨20, s.rawH⟩ ∧ readReg 3 s = some ⟨20, s.rawT⟩ ∧
    readReg 4 s = some ⟨27, s.humQ20⟩ ∧ readReg 5 s = some ⟨29, s.tempQ20⟩ ∧
    readReg 6 s = some ⟨32, regFrameLo s⟩ ∧ readReg 7 s = some ⟨24, regFrameHi s⟩ ∧
    readReg 8 s = some ⟨16, s.pollCnt⟩ ∧ readReg 9 s = some ⟨Config.busW + 1 + 16, regCfg s⟩ ∧
    (∀ n : Nat, 10 ≤ n → readReg n s = none)

/-! ### Runs -/

/-- 70_reset_and_hazards.md R243: if the transport does not answer, the block stays with the request outstanding: for as many
steps as there is no answer and no reset, nothing but the inputs changes. -/
def Obligations.UnansweredCallIsStuck : Prop :=
  ∀ (n : Nat) (s : State), usesTransport s.seq = true → s.trPending = true → n ≤ s.env.length →
    (∀ p ∈ s.pins :: s.env, p.reset = false ∧ p.rspValid = false) →
    ∃ p, (s.pins :: s.env)[n]? = some p ∧
      Host.Core.run Sys2Proof.core n s = .next { s with pins := p, env := s.env.drop n }

/-- 70_reset_and_hazards.md R240: a delay is not skippable: in a delay state with `k` ticks to go, no run of at most `k` steps
without reset leaves it or records an event, whatever the transport answers meanwhile. The boundary, `k` steps, rests on the
exit being a step of its own after the tick that reached 0: the model's reading (log 11, DEDUCED), no rule of the spec. -/
def Obligations.DelaysAreNotShortened : Prop :=
  ∀ (n : Nat) (s t : State), (s.seq = .initDelay ∨ s.seq = .measSettle ∨ s.seq = .rstDelay) → n ≤ s.dlyCnt →
    n ≤ s.env.length → (∀ p ∈ s.pins :: s.env, p.reset = false) →
    Host.Core.run Sys2Proof.core n s = .next t → t.seq = s.seq ∧ t.trace = s.trace ∧ s.dlyCnt ≤ t.dlyCnt + n

/-- 70_reset_and_hazards.md R242, 42_measurement_fsm.md R155: with `CFG_POLL_LIMIT = 0` a sensor that stays busy keeps the
operation running: after any number of busy rounds the core is in the poll as before, not completed, `poll_cnt` unmoved,
and the trace has grown by the rounds and nothing else. -/
def Obligations.UnboundedPollGoesOn : Prop :=
  ∀ (rounds : List (Pins × Pins)) (s : State) (p : Pins) (rest : List Pins),
    s.seq = .measPoll → s.trPending = false → s.cfgPollLimit = 0#16 → (∀ r ∈ rounds, busyRound r) →
    s.pins :: s.env = rounds.flatMap (fun r => [r.1, r.2]) ++ p :: rest →
    ∃ t, Host.Core.run Sys2Proof.core (2 * rounds.length) s = .next t ∧
      t.seq = .measPoll ∧ t.trPending = false ∧ t.sessState = s.sessState ∧ t.rspValid = s.rspValid ∧
      t.pollCnt = s.pollCnt ∧ t.pins = p ∧ t.env = rest ∧
      t.trace = s.trace ++ rounds.flatMap (busyEvents s.handle)

/-- 43_session_ops.md R176 (the calibration-skip property), R173: `init` from `Uninitialized` with an open answered `Ok` and
a status byte whose bit 3 is set: five steps, `Ready`, no write and no delay. -/
def Obligations.CalibratedInitWritesNothing : Prop :=
  ∀ (s : State) (p0 p1 p2 p3 p4 p5 : Pins) (rest : List Pins),
    s.seq = .idle → s.trPending = false → s.sessState = .uninitialized →
    s.pins = p0 → s.env = p1 :: p2 :: p3 :: p4 :: p5 :: rest →
    (∀ p ∈ [p0, p1, p2, p3, p4], p.reset = false) →
    p0.opValid = true → p0.opCode = 1#3 →
    p2.rspValid = true → p2.rspErr = false →
    p4.rspValid = true → p4.rspErr = false → p4.rspLen = 1#4 → (answerByte p4 0).getLsbD 3 = true →
    ∃ t, Host.Core.run Sys2Proof.core 5 s = .next t ∧
      t = { s with
        curOp := 1#3, handle := p2.rspHandle, handleValid := true, frame := { s.frame with b0 := answerByte p4 0 },
        frameFull := false, sessState := .ready, rspStatus := .ok, rspValid := true, pins := p5, env := rest,
        trace := s.trace ++ [.accept 1#3, .open s.cfgBusIndex 0x38#7 s.cfgOpenFlags,
          .rsp .open (.okHandle p2.rspHandle), .read p2.rspHandle 1,
          .rsp .read (.okBytes 1#4 [answerByte p4 0]), .done 1#3 .ok] }

/-- 43_session_ops.md R181 to R183, 42_measurement_fsm.md R159: a measurement operation from `Ready`, with the trigger write
answered `Ok`, the settle delay ticked through, any number of busy status bytes the bound allows, a clear one and a good
frame, runs to `Ready` with `ST_OK`; the frame is the one read, `crc_ok` its validity under the strap's policy, the
results those of the operation, the other field 0; the trace is the one the rules give. The number of steps counts the exit
of the settle delay (under `pExit`) as a step of its own: the model's reading (log 11, DEDUCED), no rule of the spec. -/
def Obligations.MeasurementDelivers : Prop :=
  ∀ (s : State) (c : OpCode) (pOp pIssue pWrite pExit pRead pStatus pRead7 pFrame pNext : Pins)
    (ticks : List Pins) (rounds : List (Pins × Pins)) (rest : List Pins),
    s.seq = .idle → s.trPending = false → s.sessState = .ready → isGet c = true →
    s.pins :: s.env = [pOp, pIssue, pWrite] ++ ticks ++ [pExit] ++ rounds.flatMap (fun r => [r.1, r.2]) ++
      [pRead, pStatus, pRead7, pFrame] ++ pNext :: rest →
    (∀ p ∈ [pOp, pIssue, pWrite, pExit, pRead, pStatus, pRead7, pFrame], p.reset = false) →
    (∀ p ∈ ticks, p.reset = false ∧ p.tick = true) → ticks.length = 80 * s.ticksPerMs.val →
    (∀ r ∈ rounds, busyRound r) → (s.cfgPollLimit = 0#16 ∨ rounds.length < s.cfgPollLimit.toNat) →
    pOp.opValid = true → pOp.opCode = c → pWrite.rspValid = true → pWrite.rspErr = false →
    pStatus.rspValid = true → pStatus.rspErr = false → pStatus.rspLen = 1#4 →
    (answerByte pStatus 0).getLsbD 7 = false →
    pFrame.rspValid = true → pFrame.rspErr = false → pFrame.rspLen = 7#4 →
    ∃ t, Host.Core.run Sys2Proof.core (8 + 80 * s.ticksPerMs.val + 2 * rounds.length) s = .next t ∧
      t.seq = .idle ∧ t.trPending = false ∧ t.sessState = .ready ∧ t.curOp = c ∧
      t.rspStatus = .ok ∧ t.rspValid = true ∧ t.frame = answerFrame pFrame ∧ t.frameFull = true ∧
      t.crcOk = validateFrame true (answerFrame pFrame) s.cfgCrcLenient ∧
      t.hasTemp = (c == 2#3 || c == 4#3) ∧ t.hasHum = (c == 3#3 || c == 4#3) ∧
      t.rawT = (if c = 2#3 ∨ c = 4#3 then rawTemp (answerFrame pFrame) else 0#20) ∧
      t.tempQ20 = (if c = 2#3 ∨ c = 4#3 then decodeTemperature (answerFrame pFrame) else 0#29) ∧
      t.rawH = (if c = 3#3 ∨ c = 4#3 then rawHumidity (answerFrame pFrame) else 0#20) ∧
      t.humQ20 = (if c = 3#3 ∨ c = 4#3 then decodeHumidity (answerFrame pFrame) else 0#27) ∧
      t.trace = s.trace ++ [.accept c, .write s.handle [0xAC#8, 0x33#8, 0x00#8], .rsp .write .okWrite, .delay 80] ++
        rounds.flatMap (busyEvents s.handle) ++
        [.read s.handle 1, .rsp .read (.okBytes 1#4 [answerByte pStatus 0]), .read s.handle 7,
         .rsp .read (.okBytes 7#4 (frameBytes (answerFrame pFrame))), .done c .ok]
end

