-- ==== Sys2Proof/Laws/State.lean ====
section
/-!
SUPPORT. Laws/State.lean: one lemma per field and shared operation, so that no later proof unfolds a record update.
-/

namespace Sys2Proof.Machine

/-! ### `emit` -/

@[simp] theorem emit_frame (e : Event) (s : State) : (emit e s).frame = s.frame := rfl
@[simp] theorem emit_seq (e : Event) (s : State) : (emit e s).seq = s.seq := rfl
@[simp] theorem emit_trPending (e : Event) (s : State) : (emit e s).trPending = s.trPending := rfl
@[simp] theorem emit_frameFull (e : Event) (s : State) : (emit e s).frameFull = s.frameFull := rfl
@[simp] theorem emit_crcOk (e : Event) (s : State) : (emit e s).crcOk = s.crcOk := rfl
@[simp] theorem emit_hasTemp (e : Event) (s : State) : (emit e s).hasTemp = s.hasTemp := rfl
@[simp] theorem emit_hasHum (e : Event) (s : State) : (emit e s).hasHum = s.hasHum := rfl
@[simp] theorem emit_cfgBusIndex (e : Event) (s : State) : (emit e s).cfgBusIndex = s.cfgBusIndex := rfl
@[simp] theorem emit_cfgCrcLenient (e : Event) (s : State) : (emit e s).cfgCrcLenient = s.cfgCrcLenient := rfl
@[simp] theorem emit_cfgPollLimit (e : Event) (s : State) : (emit e s).cfgPollLimit = s.cfgPollLimit := rfl
@[simp] theorem emit_cfgOpenFlags (e : Event) (s : State) : (emit e s).cfgOpenFlags = s.cfgOpenFlags := rfl
@[simp] theorem emit_sessState (e : Event) (s : State) : (emit e s).sessState = s.sessState := rfl
@[simp] theorem emit_handle (e : Event) (s : State) : (emit e s).handle = s.handle := rfl
@[simp] theorem emit_handleValid (e : Event) (s : State) : (emit e s).handleValid = s.handleValid := rfl
@[simp] theorem emit_curOp (e : Event) (s : State) : (emit e s).curOp = s.curOp := rfl
@[simp] theorem emit_pollCnt (e : Event) (s : State) : (emit e s).pollCnt = s.pollCnt := rfl
@[simp] theorem emit_dlyCnt (e : Event) (s : State) : (emit e s).dlyCnt = s.dlyCnt := rfl
@[simp] theorem emit_rspValid (e : Event) (s : State) : (emit e s).rspValid = s.rspValid := rfl
@[simp] theorem emit_rspStatus (e : Event) (s : State) : (emit e s).rspStatus = s.rspStatus := rfl
@[simp] theorem emit_rawT (e : Event) (s : State) : (emit e s).rawT = s.rawT := rfl
@[simp] theorem emit_rawH (e : Event) (s : State) : (emit e s).rawH = s.rawH := rfl
@[simp] theorem emit_tempQ20 (e : Event) (s : State) : (emit e s).tempQ20 = s.tempQ20 := rfl
@[simp] theorem emit_humQ20 (e : Event) (s : State) : (emit e s).humQ20 = s.humQ20 := rfl
@[simp] theorem emit_pins (e : Event) (s : State) : (emit e s).pins = s.pins := rfl
@[simp] theorem emit_trace (e : Event) (s : State) : (emit e s).trace = s.trace ++ [e] := rfl
@[simp] theorem emit_env (e : Event) (s : State) : (emit e s).env = s.env := rfl
@[simp] theorem emit_envCount (e : Event) (s : State) : (emit e s).envCount = s.envCount := rfl
@[simp] theorem emit_ticksPerMs (e : Event) (s : State) : (emit e s).ticksPerMs = s.ticksPerMs := rfl

/-! ### `complete` -/

@[simp] theorem complete_frame (st : Status) (s : State) : (complete st s).frame = s.frame := rfl
@[simp] theorem complete_seq (st : Status) (s : State) : (complete st s).seq = .idle := rfl
@[simp] theorem complete_trPending (st : Status) (s : State) : (complete st s).trPending = false := rfl
@[simp] theorem complete_frameFull (st : Status) (s : State) : (complete st s).frameFull = s.frameFull := rfl
@[simp] theorem complete_crcOk (st : Status) (s : State) : (complete st s).crcOk = s.crcOk := rfl
@[simp] theorem complete_hasTemp (st : Status) (s : State) : (complete st s).hasTemp = s.hasTemp := rfl
@[simp] theorem complete_hasHum (st : Status) (s : State) : (complete st s).hasHum = s.hasHum := rfl
@[simp] theorem complete_cfgBusIndex (st : Status) (s : State) : (complete st s).cfgBusIndex = s.cfgBusIndex := rfl
@[simp] theorem complete_cfgCrcLenient (st : Status) (s : State) : (complete st s).cfgCrcLenient = s.cfgCrcLenient := rfl
@[simp] theorem complete_cfgPollLimit (st : Status) (s : State) : (complete st s).cfgPollLimit = s.cfgPollLimit := rfl
@[simp] theorem complete_cfgOpenFlags (st : Status) (s : State) : (complete st s).cfgOpenFlags = s.cfgOpenFlags := rfl
@[simp] theorem complete_sessState (st : Status) (s : State) : (complete st s).sessState = s.sessState := rfl
@[simp] theorem complete_handle (st : Status) (s : State) : (complete st s).handle = s.handle := rfl
@[simp] theorem complete_handleValid (st : Status) (s : State) : (complete st s).handleValid = s.handleValid := rfl
@[simp] theorem complete_curOp (st : Status) (s : State) : (complete st s).curOp = s.curOp := rfl
@[simp] theorem complete_pollCnt (st : Status) (s : State) : (complete st s).pollCnt = s.pollCnt := rfl
@[simp] theorem complete_dlyCnt (st : Status) (s : State) : (complete st s).dlyCnt = s.dlyCnt := rfl
@[simp] theorem complete_rspValid (st : Status) (s : State) : (complete st s).rspValid = true := rfl
@[simp] theorem complete_rspStatus (st : Status) (s : State) : (complete st s).rspStatus = st := rfl
@[simp] theorem complete_rawT (st : Status) (s : State) : (complete st s).rawT = s.rawT := rfl
@[simp] theorem complete_rawH (st : Status) (s : State) : (complete st s).rawH = s.rawH := rfl
@[simp] theorem complete_tempQ20 (st : Status) (s : State) : (complete st s).tempQ20 = s.tempQ20 := rfl
@[simp] theorem complete_humQ20 (st : Status) (s : State) : (complete st s).humQ20 = s.humQ20 := rfl
@[simp] theorem complete_pins (st : Status) (s : State) : (complete st s).pins = s.pins := rfl
@[simp] theorem complete_trace (st : Status) (s : State) : (complete st s).trace = s.trace ++ [.done s.curOp st] := rfl
@[simp] theorem complete_env (st : Status) (s : State) : (complete st s).env = s.env := rfl
@[simp] theorem complete_envCount (st : Status) (s : State) : (complete st s).envCount = s.envCount := rfl
@[simp] theorem complete_ticksPerMs (st : Status) (s : State) : (complete st s).ticksPerMs = s.ticksPerMs := rfl

/-! ### `raiseOutcome` -/

@[simp] theorem raiseOutcome_frame (e : Raised) (s : State) : (raiseOutcome e s).frame = s.frame := rfl
@[simp] theorem raiseOutcome_seq (e : Raised) (s : State) : (raiseOutcome e s).seq = .idle := rfl
@[simp] theorem raiseOutcome_trPending (e : Raised) (s : State) : (raiseOutcome e s).trPending = false := rfl
@[simp] theorem raiseOutcome_frameFull (e : Raised) (s : State) : (raiseOutcome e s).frameFull = s.frameFull := rfl
@[simp] theorem raiseOutcome_crcOk (e : Raised) (s : State) : (raiseOutcome e s).crcOk = s.crcOk := rfl
@[simp] theorem raiseOutcome_hasTemp (e : Raised) (s : State) : (raiseOutcome e s).hasTemp = s.hasTemp := rfl
@[simp] theorem raiseOutcome_hasHum (e : Raised) (s : State) : (raiseOutcome e s).hasHum = s.hasHum := rfl
@[simp] theorem raiseOutcome_cfgBusIndex (e : Raised) (s : State) : (raiseOutcome e s).cfgBusIndex = s.cfgBusIndex := rfl
@[simp] theorem raiseOutcome_cfgCrcLenient (e : Raised) (s : State) : (raiseOutcome e s).cfgCrcLenient = s.cfgCrcLenient := rfl
@[simp] theorem raiseOutcome_cfgPollLimit (e : Raised) (s : State) : (raiseOutcome e s).cfgPollLimit = s.cfgPollLimit := rfl
@[simp] theorem raiseOutcome_cfgOpenFlags (e : Raised) (s : State) : (raiseOutcome e s).cfgOpenFlags = s.cfgOpenFlags := rfl
@[simp] theorem raiseOutcome_sessState (e : Raised) (s : State) : (raiseOutcome e s).sessState = raisedSession e := rfl
@[simp] theorem raiseOutcome_handle (e : Raised) (s : State) : (raiseOutcome e s).handle = s.handle := rfl
@[simp] theorem raiseOutcome_handleValid (e : Raised) (s : State) : (raiseOutcome e s).handleValid = s.handleValid := rfl
@[simp] theorem raiseOutcome_curOp (e : Raised) (s : State) : (raiseOutcome e s).curOp = s.curOp := rfl
@[simp] theorem raiseOutcome_pollCnt (e : Raised) (s : State) : (raiseOutcome e s).pollCnt = s.pollCnt := rfl
@[simp] theorem raiseOutcome_dlyCnt (e : Raised) (s : State) : (raiseOutcome e s).dlyCnt = s.dlyCnt := rfl
@[simp] theorem raiseOutcome_rspValid (e : Raised) (s : State) : (raiseOutcome e s).rspValid = true := rfl
@[simp] theorem raiseOutcome_rspStatus (e : Raised) (s : State) : (raiseOutcome e s).rspStatus = raisedStatus e := rfl
@[simp] theorem raiseOutcome_rawT (e : Raised) (s : State) : (raiseOutcome e s).rawT = s.rawT := rfl
@[simp] theorem raiseOutcome_rawH (e : Raised) (s : State) : (raiseOutcome e s).rawH = s.rawH := rfl
@[simp] theorem raiseOutcome_tempQ20 (e : Raised) (s : State) : (raiseOutcome e s).tempQ20 = s.tempQ20 := rfl
@[simp] theorem raiseOutcome_humQ20 (e : Raised) (s : State) : (raiseOutcome e s).humQ20 = s.humQ20 := rfl
@[simp] theorem raiseOutcome_pins (e : Raised) (s : State) : (raiseOutcome e s).pins = s.pins := rfl
@[simp] theorem raiseOutcome_trace (e : Raised) (s : State) : (raiseOutcome e s).trace = s.trace ++ [.done s.curOp (raisedStatus e)] := rfl
@[simp] theorem raiseOutcome_env (e : Raised) (s : State) : (raiseOutcome e s).env = s.env := rfl
@[simp] theorem raiseOutcome_envCount (e : Raised) (s : State) : (raiseOutcome e s).envCount = s.envCount := rfl
@[simp] theorem raiseOutcome_ticksPerMs (e : Raised) (s : State) : (raiseOutcome e s).ticksPerMs = s.ticksPerMs := rfl

/-! ### `accept` -/

@[simp] theorem accept_frame (c : OpCode) (s : State) : (accept c s).frame = s.frame := rfl
@[simp] theorem accept_seq (c : OpCode) (s : State) : (accept c s).seq = s.seq := rfl
@[simp] theorem accept_trPending (c : OpCode) (s : State) : (accept c s).trPending = s.trPending := rfl
@[simp] theorem accept_frameFull (c : OpCode) (s : State) : (accept c s).frameFull = s.frameFull := rfl
@[simp] theorem accept_crcOk (c : OpCode) (s : State) : (accept c s).crcOk = s.crcOk := rfl
@[simp] theorem accept_hasTemp (c : OpCode) (s : State) : (accept c s).hasTemp = s.hasTemp := rfl
@[simp] theorem accept_hasHum (c : OpCode) (s : State) : (accept c s).hasHum = s.hasHum := rfl
@[simp] theorem accept_cfgBusIndex (c : OpCode) (s : State) : (accept c s).cfgBusIndex = s.cfgBusIndex := rfl
@[simp] theorem accept_cfgCrcLenient (c : OpCode) (s : State) : (accept c s).cfgCrcLenient = s.cfgCrcLenient := rfl
@[simp] theorem accept_cfgPollLimit (c : OpCode) (s : State) : (accept c s).cfgPollLimit = s.cfgPollLimit := rfl
@[simp] theorem accept_cfgOpenFlags (c : OpCode) (s : State) : (accept c s).cfgOpenFlags = s.cfgOpenFlags := rfl
@[simp] theorem accept_sessState (c : OpCode) (s : State) : (accept c s).sessState = s.sessState := rfl
@[simp] theorem accept_handle (c : OpCode) (s : State) : (accept c s).handle = s.handle := rfl
@[simp] theorem accept_handleValid (c : OpCode) (s : State) : (accept c s).handleValid = s.handleValid := rfl
@[simp] theorem accept_curOp (c : OpCode) (s : State) : (accept c s).curOp = c := rfl
@[simp] theorem accept_pollCnt (c : OpCode) (s : State) : (accept c s).pollCnt = s.pollCnt := rfl
@[simp] theorem accept_dlyCnt (c : OpCode) (s : State) : (accept c s).dlyCnt = s.dlyCnt := rfl
@[simp] theorem accept_rspValid (c : OpCode) (s : State) : (accept c s).rspValid = false := rfl
@[simp] theorem accept_rspStatus (c : OpCode) (s : State) : (accept c s).rspStatus = s.rspStatus := rfl
@[simp] theorem accept_rawT (c : OpCode) (s : State) : (accept c s).rawT = s.rawT := rfl
@[simp] theorem accept_rawH (c : OpCode) (s : State) : (accept c s).rawH = s.rawH := rfl
@[simp] theorem accept_tempQ20 (c : OpCode) (s : State) : (accept c s).tempQ20 = s.tempQ20 := rfl
@[simp] theorem accept_humQ20 (c : OpCode) (s : State) : (accept c s).humQ20 = s.humQ20 := rfl
@[simp] theorem accept_pins (c : OpCode) (s : State) : (accept c s).pins = s.pins := rfl
@[simp] theorem accept_trace (c : OpCode) (s : State) : (accept c s).trace = s.trace ++ [.accept c] := rfl
@[simp] theorem accept_env (c : OpCode) (s : State) : (accept c s).env = s.env := rfl
@[simp] theorem accept_envCount (c : OpCode) (s : State) : (accept c s).envCount = s.envCount := rfl
@[simp] theorem accept_ticksPerMs (c : OpCode) (s : State) : (accept c s).ticksPerMs = s.ticksPerMs := rfl

/-! ### `refuse` -/

@[simp] theorem refuse_frame (c : OpCode) (s : State) : (refuse c s).frame = s.frame := rfl
@[simp] theorem refuse_seq (c : OpCode) (s : State) : (refuse c s).seq = .idle := rfl
@[simp] theorem refuse_trPending (c : OpCode) (s : State) : (refuse c s).trPending = false := rfl
@[simp] theorem refuse_frameFull (c : OpCode) (s : State) : (refuse c s).frameFull = s.frameFull := rfl
@[simp] theorem refuse_crcOk (c : OpCode) (s : State) : (refuse c s).crcOk = s.crcOk := rfl
@[simp] theorem refuse_hasTemp (c : OpCode) (s : State) : (refuse c s).hasTemp = s.hasTemp := rfl
@[simp] theorem refuse_hasHum (c : OpCode) (s : State) : (refuse c s).hasHum = s.hasHum := rfl
@[simp] theorem refuse_cfgBusIndex (c : OpCode) (s : State) : (refuse c s).cfgBusIndex = s.cfgBusIndex := rfl
@[simp] theorem refuse_cfgCrcLenient (c : OpCode) (s : State) : (refuse c s).cfgCrcLenient = s.cfgCrcLenient := rfl
@[simp] theorem refuse_cfgPollLimit (c : OpCode) (s : State) : (refuse c s).cfgPollLimit = s.cfgPollLimit := rfl
@[simp] theorem refuse_cfgOpenFlags (c : OpCode) (s : State) : (refuse c s).cfgOpenFlags = s.cfgOpenFlags := rfl
@[simp] theorem refuse_sessState (c : OpCode) (s : State) : (refuse c s).sessState = s.sessState := rfl
@[simp] theorem refuse_handle (c : OpCode) (s : State) : (refuse c s).handle = s.handle := rfl
@[simp] theorem refuse_handleValid (c : OpCode) (s : State) : (refuse c s).handleValid = s.handleValid := rfl
@[simp] theorem refuse_curOp (c : OpCode) (s : State) : (refuse c s).curOp = c := rfl
@[simp] theorem refuse_pollCnt (c : OpCode) (s : State) : (refuse c s).pollCnt = s.pollCnt := rfl
@[simp] theorem refuse_dlyCnt (c : OpCode) (s : State) : (refuse c s).dlyCnt = s.dlyCnt := rfl
@[simp] theorem refuse_rspValid (c : OpCode) (s : State) : (refuse c s).rspValid = true := rfl
@[simp] theorem refuse_rspStatus (c : OpCode) (s : State) : (refuse c s).rspStatus = .invalid := rfl
@[simp] theorem refuse_rawT (c : OpCode) (s : State) : (refuse c s).rawT = s.rawT := rfl
@[simp] theorem refuse_rawH (c : OpCode) (s : State) : (refuse c s).rawH = s.rawH := rfl
@[simp] theorem refuse_tempQ20 (c : OpCode) (s : State) : (refuse c s).tempQ20 = s.tempQ20 := rfl
@[simp] theorem refuse_humQ20 (c : OpCode) (s : State) : (refuse c s).humQ20 = s.humQ20 := rfl
@[simp] theorem refuse_pins (c : OpCode) (s : State) : (refuse c s).pins = s.pins := rfl
@[simp] theorem refuse_trace (c : OpCode) (s : State) : (refuse c s).trace = s.trace ++ [.accept c] ++ [.done c .invalid] := rfl
@[simp] theorem refuse_env (c : OpCode) (s : State) : (refuse c s).env = s.env := rfl
@[simp] theorem refuse_envCount (c : OpCode) (s : State) : (refuse c s).envCount = s.envCount := rfl
@[simp] theorem refuse_ticksPerMs (c : OpCode) (s : State) : (refuse c s).ticksPerMs = s.ticksPerMs := rfl

/-! ### `enter` -/

@[simp] theorem enter_frame (q : Seq) (s : State) : (enter q s).frame = s.frame := rfl
@[simp] theorem enter_seq (q : Seq) (s : State) : (enter q s).seq = q := rfl
@[simp] theorem enter_trPending (q : Seq) (s : State) : (enter q s).trPending = false := rfl
@[simp] theorem enter_frameFull (q : Seq) (s : State) : (enter q s).frameFull = s.frameFull := rfl
@[simp] theorem enter_crcOk (q : Seq) (s : State) : (enter q s).crcOk = s.crcOk := rfl
@[simp] theorem enter_hasTemp (q : Seq) (s : State) : (enter q s).hasTemp = s.hasTemp := rfl
@[simp] theorem enter_hasHum (q : Seq) (s : State) : (enter q s).hasHum = s.hasHum := rfl
@[simp] theorem enter_cfgBusIndex (q : Seq) (s : State) : (enter q s).cfgBusIndex = s.cfgBusIndex := rfl
@[simp] theorem enter_cfgCrcLenient (q : Seq) (s : State) : (enter q s).cfgCrcLenient = s.cfgCrcLenient := rfl
@[simp] theorem enter_cfgPollLimit (q : Seq) (s : State) : (enter q s).cfgPollLimit = s.cfgPollLimit := rfl
@[simp] theorem enter_cfgOpenFlags (q : Seq) (s : State) : (enter q s).cfgOpenFlags = s.cfgOpenFlags := rfl
@[simp] theorem enter_sessState (q : Seq) (s : State) : (enter q s).sessState = s.sessState := rfl
@[simp] theorem enter_handle (q : Seq) (s : State) : (enter q s).handle = s.handle := rfl
@[simp] theorem enter_handleValid (q : Seq) (s : State) : (enter q s).handleValid = s.handleValid := rfl
@[simp] theorem enter_curOp (q : Seq) (s : State) : (enter q s).curOp = s.curOp := rfl
@[simp] theorem enter_pollCnt (q : Seq) (s : State) : (enter q s).pollCnt = s.pollCnt := rfl
@[simp] theorem enter_dlyCnt (q : Seq) (s : State) : (enter q s).dlyCnt = s.dlyCnt := rfl
@[simp] theorem enter_rspValid (q : Seq) (s : State) : (enter q s).rspValid = s.rspValid := rfl
@[simp] theorem enter_rspStatus (q : Seq) (s : State) : (enter q s).rspStatus = s.rspStatus := rfl
@[simp] theorem enter_rawT (q : Seq) (s : State) : (enter q s).rawT = s.rawT := rfl
@[simp] theorem enter_rawH (q : Seq) (s : State) : (enter q s).rawH = s.rawH := rfl
@[simp] theorem enter_tempQ20 (q : Seq) (s : State) : (enter q s).tempQ20 = s.tempQ20 := rfl
@[simp] theorem enter_humQ20 (q : Seq) (s : State) : (enter q s).humQ20 = s.humQ20 := rfl
@[simp] theorem enter_pins (q : Seq) (s : State) : (enter q s).pins = s.pins := rfl
@[simp] theorem enter_trace (q : Seq) (s : State) : (enter q s).trace = s.trace := rfl
@[simp] theorem enter_env (q : Seq) (s : State) : (enter q s).env = s.env := rfl
@[simp] theorem enter_envCount (q : Seq) (s : State) : (enter q s).envCount = s.envCount := rfl
@[simp] theorem enter_ticksPerMs (q : Seq) (s : State) : (enter q s).ticksPerMs = s.ticksPerMs := rfl

/-! ### `receiveAnswer` -/

@[simp] theorem receiveAnswer_frame (k : TrKind) (s : State) : (receiveAnswer k s).frame = s.frame := rfl
@[simp] theorem receiveAnswer_seq (k : TrKind) (s : State) : (receiveAnswer k s).seq = s.seq := rfl
@[simp] theorem receiveAnswer_trPending (k : TrKind) (s : State) : (receiveAnswer k s).trPending = false := rfl
@[simp] theorem receiveAnswer_frameFull (k : TrKind) (s : State) : (receiveAnswer k s).frameFull = s.frameFull := rfl
@[simp] theorem receiveAnswer_crcOk (k : TrKind) (s : State) : (receiveAnswer k s).crcOk = s.crcOk := rfl
@[simp] theorem receiveAnswer_hasTemp (k : TrKind) (s : State) : (receiveAnswer k s).hasTemp = s.hasTemp := rfl
@[simp] theorem receiveAnswer_hasHum (k : TrKind) (s : State) : (receiveAnswer k s).hasHum = s.hasHum := rfl
@[simp] theorem receiveAnswer_cfgBusIndex (k : TrKind) (s : State) : (receiveAnswer k s).cfgBusIndex = s.cfgBusIndex := rfl
@[simp] theorem receiveAnswer_cfgCrcLenient (k : TrKind) (s : State) : (receiveAnswer k s).cfgCrcLenient = s.cfgCrcLenient := rfl
@[simp] theorem receiveAnswer_cfgPollLimit (k : TrKind) (s : State) : (receiveAnswer k s).cfgPollLimit = s.cfgPollLimit := rfl
@[simp] theorem receiveAnswer_cfgOpenFlags (k : TrKind) (s : State) : (receiveAnswer k s).cfgOpenFlags = s.cfgOpenFlags := rfl
@[simp] theorem receiveAnswer_sessState (k : TrKind) (s : State) : (receiveAnswer k s).sessState = s.sessState := rfl
@[simp] theorem receiveAnswer_handle (k : TrKind) (s : State) : (receiveAnswer k s).handle = s.handle := rfl
@[simp] theorem receiveAnswer_handleValid (k : TrKind) (s : State) : (receiveAnswer k s).handleValid = s.handleValid := rfl
@[simp] theorem receiveAnswer_curOp (k : TrKind) (s : State) : (receiveAnswer k s).curOp = s.curOp := rfl
@[simp] theorem receiveAnswer_pollCnt (k : TrKind) (s : State) : (receiveAnswer k s).pollCnt = s.pollCnt := rfl
@[simp] theorem receiveAnswer_dlyCnt (k : TrKind) (s : State) : (receiveAnswer k s).dlyCnt = s.dlyCnt := rfl
@[simp] theorem receiveAnswer_rspValid (k : TrKind) (s : State) : (receiveAnswer k s).rspValid = s.rspValid := rfl
@[simp] theorem receiveAnswer_rspStatus (k : TrKind) (s : State) : (receiveAnswer k s).rspStatus = s.rspStatus := rfl
@[simp] theorem receiveAnswer_rawT (k : TrKind) (s : State) : (receiveAnswer k s).rawT = s.rawT := rfl
@[simp] theorem receiveAnswer_rawH (k : TrKind) (s : State) : (receiveAnswer k s).rawH = s.rawH := rfl
@[simp] theorem receiveAnswer_tempQ20 (k : TrKind) (s : State) : (receiveAnswer k s).tempQ20 = s.tempQ20 := rfl
@[simp] theorem receiveAnswer_humQ20 (k : TrKind) (s : State) : (receiveAnswer k s).humQ20 = s.humQ20 := rfl
@[simp] theorem receiveAnswer_pins (k : TrKind) (s : State) : (receiveAnswer k s).pins = s.pins := rfl
@[simp] theorem receiveAnswer_trace (k : TrKind) (s : State) : (receiveAnswer k s).trace = s.trace ++ [.rsp k (portAnswer k s.pins)] := rfl
@[simp] theorem receiveAnswer_env (k : TrKind) (s : State) : (receiveAnswer k s).env = s.env := rfl
@[simp] theorem receiveAnswer_envCount (k : TrKind) (s : State) : (receiveAnswer k s).envCount = s.envCount := rfl
@[simp] theorem receiveAnswer_ticksPerMs (k : TrKind) (s : State) : (receiveAnswer k s).ticksPerMs = s.ticksPerMs := rfl

/-! ### `storeStatus` -/

@[simp] theorem storeStatus_frame (b : Byte) (s : State) : (storeStatus b s).frame = { s.frame with b0 := b } := rfl
@[simp] theorem storeStatus_seq (b : Byte) (s : State) : (storeStatus b s).seq = s.seq := rfl
@[simp] theorem storeStatus_trPending (b : Byte) (s : State) : (storeStatus b s).trPending = s.trPending := rfl
@[simp] theorem storeStatus_frameFull (b : Byte) (s : State) : (storeStatus b s).frameFull = false := rfl
@[simp] theorem storeStatus_crcOk (b : Byte) (s : State) : (storeStatus b s).crcOk = s.crcOk := rfl
@[simp] theorem storeStatus_hasTemp (b : Byte) (s : State) : (storeStatus b s).hasTemp = s.hasTemp := rfl
@[simp] theorem storeStatus_hasHum (b : Byte) (s : State) : (storeStatus b s).hasHum = s.hasHum := rfl
@[simp] theorem storeStatus_cfgBusIndex (b : Byte) (s : State) : (storeStatus b s).cfgBusIndex = s.cfgBusIndex := rfl
@[simp] theorem storeStatus_cfgCrcLenient (b : Byte) (s : State) : (storeStatus b s).cfgCrcLenient = s.cfgCrcLenient := rfl
@[simp] theorem storeStatus_cfgPollLimit (b : Byte) (s : State) : (storeStatus b s).cfgPollLimit = s.cfgPollLimit := rfl
@[simp] theorem storeStatus_cfgOpenFlags (b : Byte) (s : State) : (storeStatus b s).cfgOpenFlags = s.cfgOpenFlags := rfl
@[simp] theorem storeStatus_sessState (b : Byte) (s : State) : (storeStatus b s).sessState = s.sessState := rfl
@[simp] theorem storeStatus_handle (b : Byte) (s : State) : (storeStatus b s).handle = s.handle := rfl
@[simp] theorem storeStatus_handleValid (b : Byte) (s : State) : (storeStatus b s).handleValid = s.handleValid := rfl
@[simp] theorem storeStatus_curOp (b : Byte) (s : State) : (storeStatus b s).curOp = s.curOp := rfl
@[simp] theorem storeStatus_pollCnt (b : Byte) (s : State) : (storeStatus b s).pollCnt = s.pollCnt := rfl
@[simp] theorem storeStatus_dlyCnt (b : Byte) (s : State) : (storeStatus b s).dlyCnt = s.dlyCnt := rfl
@[simp] theorem storeStatus_rspValid (b : Byte) (s : State) : (storeStatus b s).rspValid = s.rspValid := rfl
@[simp] theorem storeStatus_rspStatus (b : Byte) (s : State) : (storeStatus b s).rspStatus = s.rspStatus := rfl
@[simp] theorem storeStatus_rawT (b : Byte) (s : State) : (storeStatus b s).rawT = s.rawT := rfl
@[simp] theorem storeStatus_rawH (b : Byte) (s : State) : (storeStatus b s).rawH = s.rawH := rfl
@[simp] theorem storeStatus_tempQ20 (b : Byte) (s : State) : (storeStatus b s).tempQ20 = s.tempQ20 := rfl
@[simp] theorem storeStatus_humQ20 (b : Byte) (s : State) : (storeStatus b s).humQ20 = s.humQ20 := rfl
@[simp] theorem storeStatus_pins (b : Byte) (s : State) : (storeStatus b s).pins = s.pins := rfl
@[simp] theorem storeStatus_trace (b : Byte) (s : State) : (storeStatus b s).trace = s.trace := rfl
@[simp] theorem storeStatus_env (b : Byte) (s : State) : (storeStatus b s).env = s.env := rfl
@[simp] theorem storeStatus_envCount (b : Byte) (s : State) : (storeStatus b s).envCount = s.envCount := rfl
@[simp] theorem storeStatus_ticksPerMs (b : Byte) (s : State) : (storeStatus b s).ticksPerMs = s.ticksPerMs := rfl

/-! ### `storeFrame` -/

@[simp] theorem storeFrame_frame (f : Frame) (s : State) : (storeFrame f s).frame = f := rfl
@[simp] theorem storeFrame_seq (f : Frame) (s : State) : (storeFrame f s).seq = s.seq := rfl
@[simp] theorem storeFrame_trPending (f : Frame) (s : State) : (storeFrame f s).trPending = s.trPending := rfl
@[simp] theorem storeFrame_frameFull (f : Frame) (s : State) : (storeFrame f s).frameFull = true := rfl
@[simp] theorem storeFrame_crcOk (f : Frame) (s : State) : (storeFrame f s).crcOk = s.crcOk := rfl
@[simp] theorem storeFrame_hasTemp (f : Frame) (s : State) : (storeFrame f s).hasTemp = s.hasTemp := rfl
@[simp] theorem storeFrame_hasHum (f : Frame) (s : State) : (storeFrame f s).hasHum = s.hasHum := rfl
@[simp] theorem storeFrame_cfgBusIndex (f : Frame) (s : State) : (storeFrame f s).cfgBusIndex = s.cfgBusIndex := rfl
@[simp] theorem storeFrame_cfgCrcLenient (f : Frame) (s : State) : (storeFrame f s).cfgCrcLenient = s.cfgCrcLenient := rfl
@[simp] theorem storeFrame_cfgPollLimit (f : Frame) (s : State) : (storeFrame f s).cfgPollLimit = s.cfgPollLimit := rfl
@[simp] theorem storeFrame_cfgOpenFlags (f : Frame) (s : State) : (storeFrame f s).cfgOpenFlags = s.cfgOpenFlags := rfl
@[simp] theorem storeFrame_sessState (f : Frame) (s : State) : (storeFrame f s).sessState = s.sessState := rfl
@[simp] theorem storeFrame_handle (f : Frame) (s : State) : (storeFrame f s).handle = s.handle := rfl
@[simp] theorem storeFrame_handleValid (f : Frame) (s : State) : (storeFrame f s).handleValid = s.handleValid := rfl
@[simp] theorem storeFrame_curOp (f : Frame) (s : State) : (storeFrame f s).curOp = s.curOp := rfl
@[simp] theorem storeFrame_pollCnt (f : Frame) (s : State) : (storeFrame f s).pollCnt = s.pollCnt := rfl
@[simp] theorem storeFrame_dlyCnt (f : Frame) (s : State) : (storeFrame f s).dlyCnt = s.dlyCnt := rfl
@[simp] theorem storeFrame_rspValid (f : Frame) (s : State) : (storeFrame f s).rspValid = s.rspValid := rfl
@[simp] theorem storeFrame_rspStatus (f : Frame) (s : State) : (storeFrame f s).rspStatus = s.rspStatus := rfl
@[simp] theorem storeFrame_rawT (f : Frame) (s : State) : (storeFrame f s).rawT = s.rawT := rfl
@[simp] theorem storeFrame_rawH (f : Frame) (s : State) : (storeFrame f s).rawH = s.rawH := rfl
@[simp] theorem storeFrame_tempQ20 (f : Frame) (s : State) : (storeFrame f s).tempQ20 = s.tempQ20 := rfl
@[simp] theorem storeFrame_humQ20 (f : Frame) (s : State) : (storeFrame f s).humQ20 = s.humQ20 := rfl
@[simp] theorem storeFrame_pins (f : Frame) (s : State) : (storeFrame f s).pins = s.pins := rfl
@[simp] theorem storeFrame_trace (f : Frame) (s : State) : (storeFrame f s).trace = s.trace := rfl
@[simp] theorem storeFrame_env (f : Frame) (s : State) : (storeFrame f s).env = s.env := rfl
@[simp] theorem storeFrame_envCount (f : Frame) (s : State) : (storeFrame f s).envCount = s.envCount := rfl
@[simp] theorem storeFrame_ticksPerMs (f : Frame) (s : State) : (storeFrame f s).ticksPerMs = s.ticksPerMs := rfl

/-! ### `startDelay` -/

@[simp] theorem startDelay_frame (q : Seq) (ms : Nat) (s : State) : (startDelay q ms s).frame = s.frame := rfl
@[simp] theorem startDelay_seq (q : Seq) (ms : Nat) (s : State) : (startDelay q ms s).seq = q := rfl
@[simp] theorem startDelay_trPending (q : Seq) (ms : Nat) (s : State) : (startDelay q ms s).trPending = s.trPending := rfl
@[simp] theorem startDelay_frameFull (q : Seq) (ms : Nat) (s : State) : (startDelay q ms s).frameFull = s.frameFull := rfl
@[simp] theorem startDelay_crcOk (q : Seq) (ms : Nat) (s : State) : (startDelay q ms s).crcOk = s.crcOk := rfl
@[simp] theorem startDelay_hasTemp (q : Seq) (ms : Nat) (s : State) : (startDelay q ms s).hasTemp = s.hasTemp := rfl
@[simp] theorem startDelay_hasHum (q : Seq) (ms : Nat) (s : State) : (startDelay q ms s).hasHum = s.hasHum := rfl
@[simp] theorem startDelay_cfgBusIndex (q : Seq) (ms : Nat) (s : State) : (startDelay q ms s).cfgBusIndex = s.cfgBusIndex := rfl
@[simp] theorem startDelay_cfgCrcLenient (q : Seq) (ms : Nat) (s : State) : (startDelay q ms s).cfgCrcLenient = s.cfgCrcLenient := rfl
@[simp] theorem startDelay_cfgPollLimit (q : Seq) (ms : Nat) (s : State) : (startDelay q ms s).cfgPollLimit = s.cfgPollLimit := rfl
@[simp] theorem startDelay_cfgOpenFlags (q : Seq) (ms : Nat) (s : State) : (startDelay q ms s).cfgOpenFlags = s.cfgOpenFlags := rfl
@[simp] theorem startDelay_sessState (q : Seq) (ms : Nat) (s : State) : (startDelay q ms s).sessState = s.sessState := rfl
@[simp] theorem startDelay_handle (q : Seq) (ms : Nat) (s : State) : (startDelay q ms s).handle = s.handle := rfl
@[simp] theorem startDelay_handleValid (q : Seq) (ms : Nat) (s : State) : (startDelay q ms s).handleValid = s.handleValid := rfl
@[simp] theorem startDelay_curOp (q : Seq) (ms : Nat) (s : State) : (startDelay q ms s).curOp = s.curOp := rfl
@[simp] theorem startDelay_pollCnt (q : Seq) (ms : Nat) (s : State) : (startDelay q ms s).pollCnt = s.pollCnt := rfl
@[simp] theorem startDelay_dlyCnt (q : Seq) (ms : Nat) (s : State) : (startDelay q ms s).dlyCnt = ms * s.ticksPerMs.val := rfl
@[simp] theorem startDelay_rspValid (q : Seq) (ms : Nat) (s : State) : (startDelay q ms s).rspValid = s.rspValid := rfl
@[simp] theorem startDelay_rspStatus (q : Seq) (ms : Nat) (s : State) : (startDelay q ms s).rspStatus = s.rspStatus := rfl
@[simp] theorem startDelay_rawT (q : Seq) (ms : Nat) (s : State) : (startDelay q ms s).rawT = s.rawT := rfl
@[simp] theorem startDelay_rawH (q : Seq) (ms : Nat) (s : State) : (startDelay q ms s).rawH = s.rawH := rfl
@[simp] theorem startDelay_tempQ20 (q : Seq) (ms : Nat) (s : State) : (startDelay q ms s).tempQ20 = s.tempQ20 := rfl
@[simp] theorem startDelay_humQ20 (q : Seq) (ms : Nat) (s : State) : (startDelay q ms s).humQ20 = s.humQ20 := rfl
@[simp] theorem startDelay_pins (q : Seq) (ms : Nat) (s : State) : (startDelay q ms s).pins = s.pins := rfl
@[simp] theorem startDelay_trace (q : Seq) (ms : Nat) (s : State) : (startDelay q ms s).trace = s.trace ++ [.delay ms] := rfl
@[simp] theorem startDelay_env (q : Seq) (ms : Nat) (s : State) : (startDelay q ms s).env = s.env := rfl
@[simp] theorem startDelay_envCount (q : Seq) (ms : Nat) (s : State) : (startDelay q ms s).envCount = s.envCount := rfl
@[simp] theorem startDelay_ticksPerMs (q : Seq) (ms : Nat) (s : State) : (startDelay q ms s).ticksPerMs = s.ticksPerMs := rfl

/-! ### `clearResults` -/

@[simp] theorem clearResults_frame (s : State) : (clearResults s).frame = s.frame := rfl
@[simp] theorem clearResults_seq (s : State) : (clearResults s).seq = s.seq := rfl
@[simp] theorem clearResults_trPending (s : State) : (clearResults s).trPending = s.trPending := rfl
@[simp] theorem clearResults_frameFull (s : State) : (clearResults s).frameFull = s.frameFull := rfl
@[simp] theorem clearResults_crcOk (s : State) : (clearResults s).crcOk = false := rfl
@[simp] theorem clearResults_hasTemp (s : State) : (clearResults s).hasTemp = false := rfl
@[simp] theorem clearResults_hasHum (s : State) : (clearResults s).hasHum = false := rfl
@[simp] theorem clearResults_cfgBusIndex (s : State) : (clearResults s).cfgBusIndex = s.cfgBusIndex := rfl
@[simp] theorem clearResults_cfgCrcLenient (s : State) : (clearResults s).cfgCrcLenient = s.cfgCrcLenient := rfl
@[simp] theorem clearResults_cfgPollLimit (s : State) : (clearResults s).cfgPollLimit = s.cfgPollLimit := rfl
@[simp] theorem clearResults_cfgOpenFlags (s : State) : (clearResults s).cfgOpenFlags = s.cfgOpenFlags := rfl
@[simp] theorem clearResults_sessState (s : State) : (clearResults s).sessState = s.sessState := rfl
@[simp] theorem clearResults_handle (s : State) : (clearResults s).handle = s.handle := rfl
@[simp] theorem clearResults_handleValid (s : State) : (clearResults s).handleValid = s.handleValid := rfl
@[simp] theorem clearResults_curOp (s : State) : (clearResults s).curOp = s.curOp := rfl
@[simp] theorem clearResults_pollCnt (s : State) : (clearResults s).pollCnt = s.pollCnt := rfl
@[simp] theorem clearResults_dlyCnt (s : State) : (clearResults s).dlyCnt = s.dlyCnt := rfl
@[simp] theorem clearResults_rspValid (s : State) : (clearResults s).rspValid = s.rspValid := rfl
@[simp] theorem clearResults_rspStatus (s : State) : (clearResults s).rspStatus = s.rspStatus := rfl
@[simp] theorem clearResults_rawT (s : State) : (clearResults s).rawT = 0#20 := rfl
@[simp] theorem clearResults_rawH (s : State) : (clearResults s).rawH = 0#20 := rfl
@[simp] theorem clearResults_tempQ20 (s : State) : (clearResults s).tempQ20 = 0#29 := rfl
@[simp] theorem clearResults_humQ20 (s : State) : (clearResults s).humQ20 = 0#27 := rfl
@[simp] theorem clearResults_pins (s : State) : (clearResults s).pins = s.pins := rfl
@[simp] theorem clearResults_trace (s : State) : (clearResults s).trace = s.trace := rfl
@[simp] theorem clearResults_env (s : State) : (clearResults s).env = s.env := rfl
@[simp] theorem clearResults_envCount (s : State) : (clearResults s).envCount = s.envCount := rfl
@[simp] theorem clearResults_ticksPerMs (s : State) : (clearResults s).ticksPerMs = s.ticksPerMs := rfl

/-! ### `startMeasurement` -/

@[simp] theorem startMeasurement_frame (s : State) : (startMeasurement s).frame = s.frame := rfl
@[simp] theorem startMeasurement_seq (s : State) : (startMeasurement s).seq = .measTrigger := rfl
@[simp] theorem startMeasurement_trPending (s : State) : (startMeasurement s).trPending = false := rfl
@[simp] theorem startMeasurement_frameFull (s : State) : (startMeasurement s).frameFull = s.frameFull := rfl
@[simp] theorem startMeasurement_crcOk (s : State) : (startMeasurement s).crcOk = false := rfl
@[simp] theorem startMeasurement_hasTemp (s : State) : (startMeasurement s).hasTemp = false := rfl
@[simp] theorem startMeasurement_hasHum (s : State) : (startMeasurement s).hasHum = false := rfl
@[simp] theorem startMeasurement_cfgBusIndex (s : State) : (startMeasurement s).cfgBusIndex = s.cfgBusIndex := rfl
@[simp] theorem startMeasurement_cfgCrcLenient (s : State) : (startMeasurement s).cfgCrcLenient = s.cfgCrcLenient := rfl
@[simp] theorem startMeasurement_cfgPollLimit (s : State) : (startMeasurement s).cfgPollLimit = s.cfgPollLimit := rfl
@[simp] theorem startMeasurement_cfgOpenFlags (s : State) : (startMeasurement s).cfgOpenFlags = s.cfgOpenFlags := rfl
@[simp] theorem startMeasurement_sessState (s : State) : (startMeasurement s).sessState = .measuring := rfl
@[simp] theorem startMeasurement_handle (s : State) : (startMeasurement s).handle = s.handle := rfl
@[simp] theorem startMeasurement_handleValid (s : State) : (startMeasurement s).handleValid = s.handleValid := rfl
@[simp] theorem startMeasurement_curOp (s : State) : (startMeasurement s).curOp = s.curOp := rfl
@[simp] theorem startMeasurement_pollCnt (s : State) : (startMeasurement s).pollCnt = s.pollCnt := rfl
@[simp] theorem startMeasurement_dlyCnt (s : State) : (startMeasurement s).dlyCnt = s.dlyCnt := rfl
@[simp] theorem startMeasurement_rspValid (s : State) : (startMeasurement s).rspValid = s.rspValid := rfl
@[simp] theorem startMeasurement_rspStatus (s : State) : (startMeasurement s).rspStatus = s.rspStatus := rfl
@[simp] theorem startMeasurement_rawT (s : State) : (startMeasurement s).rawT = 0#20 := rfl
@[simp] theorem startMeasurement_rawH (s : State) : (startMeasurement s).rawH = 0#20 := rfl
@[simp] theorem startMeasurement_tempQ20 (s : State) : (startMeasurement s).tempQ20 = 0#29 := rfl
@[simp] theorem startMeasurement_humQ20 (s : State) : (startMeasurement s).humQ20 = 0#27 := rfl
@[simp] theorem startMeasurement_pins (s : State) : (startMeasurement s).pins = s.pins := rfl
@[simp] theorem startMeasurement_trace (s : State) : (startMeasurement s).trace = s.trace := rfl
@[simp] theorem startMeasurement_env (s : State) : (startMeasurement s).env = s.env := rfl
@[simp] theorem startMeasurement_envCount (s : State) : (startMeasurement s).envCount = s.envCount := rfl
@[simp] theorem startMeasurement_ticksPerMs (s : State) : (startMeasurement s).ticksPerMs = s.ticksPerMs := rfl

/-! ### `expireSettle` -/

@[simp] theorem expireSettle_frame (s : State) : (expireSettle s).frame = s.frame := rfl
@[simp] theorem expireSettle_seq (s : State) : (expireSettle s).seq = .measPoll := rfl
@[simp] theorem expireSettle_trPending (s : State) : (expireSettle s).trPending = false := rfl
@[simp] theorem expireSettle_frameFull (s : State) : (expireSettle s).frameFull = s.frameFull := rfl
@[simp] theorem expireSettle_crcOk (s : State) : (expireSettle s).crcOk = s.crcOk := rfl
@[simp] theorem expireSettle_hasTemp (s : State) : (expireSettle s).hasTemp = s.hasTemp := rfl
@[simp] theorem expireSettle_hasHum (s : State) : (expireSettle s).hasHum = s.hasHum := rfl
@[simp] theorem expireSettle_cfgBusIndex (s : State) : (expireSettle s).cfgBusIndex = s.cfgBusIndex := rfl
@[simp] theorem expireSettle_cfgCrcLenient (s : State) : (expireSettle s).cfgCrcLenient = s.cfgCrcLenient := rfl
@[simp] theorem expireSettle_cfgPollLimit (s : State) : (expireSettle s).cfgPollLimit = s.cfgPollLimit := rfl
@[simp] theorem expireSettle_cfgOpenFlags (s : State) : (expireSettle s).cfgOpenFlags = s.cfgOpenFlags := rfl
@[simp] theorem expireSettle_sessState (s : State) : (expireSettle s).sessState = s.sessState := rfl
@[simp] theorem expireSettle_handle (s : State) : (expireSettle s).handle = s.handle := rfl
@[simp] theorem expireSettle_handleValid (s : State) : (expireSettle s).handleValid = s.handleValid := rfl
@[simp] theorem expireSettle_curOp (s : State) : (expireSettle s).curOp = s.curOp := rfl
@[simp] theorem expireSettle_pollCnt (s : State) : (expireSettle s).pollCnt = 0#16 := rfl
@[simp] theorem expireSettle_dlyCnt (s : State) : (expireSettle s).dlyCnt = s.dlyCnt := rfl
@[simp] theorem expireSettle_rspValid (s : State) : (expireSettle s).rspValid = s.rspValid := rfl
@[simp] theorem expireSettle_rspStatus (s : State) : (expireSettle s).rspStatus = s.rspStatus := rfl
@[simp] theorem expireSettle_rawT (s : State) : (expireSettle s).rawT = s.rawT := rfl
@[simp] theorem expireSettle_rawH (s : State) : (expireSettle s).rawH = s.rawH := rfl
@[simp] theorem expireSettle_tempQ20 (s : State) : (expireSettle s).tempQ20 = s.tempQ20 := rfl
@[simp] theorem expireSettle_humQ20 (s : State) : (expireSettle s).humQ20 = s.humQ20 := rfl
@[simp] theorem expireSettle_pins (s : State) : (expireSettle s).pins = s.pins := rfl
@[simp] theorem expireSettle_trace (s : State) : (expireSettle s).trace = s.trace := rfl
@[simp] theorem expireSettle_env (s : State) : (expireSettle s).env = s.env := rfl
@[simp] theorem expireSettle_envCount (s : State) : (expireSettle s).envCount = s.envCount := rfl
@[simp] theorem expireSettle_ticksPerMs (s : State) : (expireSettle s).ticksPerMs = s.ticksPerMs := rfl

/-! ### `countPoll` -/

@[simp] theorem countPoll_frame (s : State) : (countPoll s).frame = s.frame := rfl
@[simp] theorem countPoll_seq (s : State) : (countPoll s).seq = s.seq := rfl
@[simp] theorem countPoll_trPending (s : State) : (countPoll s).trPending = s.trPending := rfl
@[simp] theorem countPoll_frameFull (s : State) : (countPoll s).frameFull = s.frameFull := rfl
@[simp] theorem countPoll_crcOk (s : State) : (countPoll s).crcOk = s.crcOk := rfl
@[simp] theorem countPoll_hasTemp (s : State) : (countPoll s).hasTemp = s.hasTemp := rfl
@[simp] theorem countPoll_hasHum (s : State) : (countPoll s).hasHum = s.hasHum := rfl
@[simp] theorem countPoll_cfgBusIndex (s : State) : (countPoll s).cfgBusIndex = s.cfgBusIndex := rfl
@[simp] theorem countPoll_cfgCrcLenient (s : State) : (countPoll s).cfgCrcLenient = s.cfgCrcLenient := rfl
@[simp] theorem countPoll_cfgPollLimit (s : State) : (countPoll s).cfgPollLimit = s.cfgPollLimit := rfl
@[simp] theorem countPoll_cfgOpenFlags (s : State) : (countPoll s).cfgOpenFlags = s.cfgOpenFlags := rfl
@[simp] theorem countPoll_sessState (s : State) : (countPoll s).sessState = s.sessState := rfl
@[simp] theorem countPoll_handle (s : State) : (countPoll s).handle = s.handle := rfl
@[simp] theorem countPoll_handleValid (s : State) : (countPoll s).handleValid = s.handleValid := rfl
@[simp] theorem countPoll_curOp (s : State) : (countPoll s).curOp = s.curOp := rfl
@[simp] theorem countPoll_pollCnt (s : State) : (countPoll s).pollCnt = if s.cfgPollLimit != 0#16 then s.pollCnt + 1#16 else s.pollCnt := rfl
@[simp] theorem countPoll_dlyCnt (s : State) : (countPoll s).dlyCnt = s.dlyCnt := rfl
@[simp] theorem countPoll_rspValid (s : State) : (countPoll s).rspValid = s.rspValid := rfl
@[simp] theorem countPoll_rspStatus (s : State) : (countPoll s).rspStatus = s.rspStatus := rfl
@[simp] theorem countPoll_rawT (s : State) : (countPoll s).rawT = s.rawT := rfl
@[simp] theorem countPoll_rawH (s : State) : (countPoll s).rawH = s.rawH := rfl
@[simp] theorem countPoll_tempQ20 (s : State) : (countPoll s).tempQ20 = s.tempQ20 := rfl
@[simp] theorem countPoll_humQ20 (s : State) : (countPoll s).humQ20 = s.humQ20 := rfl
@[simp] theorem countPoll_pins (s : State) : (countPoll s).pins = s.pins := rfl
@[simp] theorem countPoll_trace (s : State) : (countPoll s).trace = s.trace := rfl
@[simp] theorem countPoll_env (s : State) : (countPoll s).env = s.env := rfl
@[simp] theorem countPoll_envCount (s : State) : (countPoll s).envCount = s.envCount := rfl
@[simp] theorem countPoll_ticksPerMs (s : State) : (countPoll s).ticksPerMs = s.ticksPerMs := rfl

/-! ### `storeResults` -/

@[simp] theorem storeResults_frame (s : State) : (storeResults s).frame = s.frame := rfl
@[simp] theorem storeResults_seq (s : State) : (storeResults s).seq = s.seq := rfl
@[simp] theorem storeResults_trPending (s : State) : (storeResults s).trPending = s.trPending := rfl
@[simp] theorem storeResults_frameFull (s : State) : (storeResults s).frameFull = s.frameFull := rfl
@[simp] theorem storeResults_crcOk (s : State) : (storeResults s).crcOk = validateFrame true s.frame s.cfgCrcLenient := rfl
@[simp] theorem storeResults_hasTemp (s : State) : (storeResults s).hasTemp = if wantsTemp s.curOp then true else s.hasTemp := rfl
@[simp] theorem storeResults_hasHum (s : State) : (storeResults s).hasHum = if wantsHum s.curOp then true else s.hasHum := rfl
@[simp] theorem storeResults_cfgBusIndex (s : State) : (storeResults s).cfgBusIndex = s.cfgBusIndex := rfl
@[simp] theorem storeResults_cfgCrcLenient (s : State) : (storeResults s).cfgCrcLenient = s.cfgCrcLenient := rfl
@[simp] theorem storeResults_cfgPollLimit (s : State) : (storeResults s).cfgPollLimit = s.cfgPollLimit := rfl
@[simp] theorem storeResults_cfgOpenFlags (s : State) : (storeResults s).cfgOpenFlags = s.cfgOpenFlags := rfl
@[simp] theorem storeResults_sessState (s : State) : (storeResults s).sessState = s.sessState := rfl
@[simp] theorem storeResults_handle (s : State) : (storeResults s).handle = s.handle := rfl
@[simp] theorem storeResults_handleValid (s : State) : (storeResults s).handleValid = s.handleValid := rfl
@[simp] theorem storeResults_curOp (s : State) : (storeResults s).curOp = s.curOp := rfl
@[simp] theorem storeResults_pollCnt (s : State) : (storeResults s).pollCnt = s.pollCnt := rfl
@[simp] theorem storeResults_dlyCnt (s : State) : (storeResults s).dlyCnt = s.dlyCnt := rfl
@[simp] theorem storeResults_rspValid (s : State) : (storeResults s).rspValid = s.rspValid := rfl
@[simp] theorem storeResults_rspStatus (s : State) : (storeResults s).rspStatus = s.rspStatus := rfl
@[simp] theorem storeResults_rawT (s : State) : (storeResults s).rawT = if wantsTemp s.curOp then rawTemp s.frame else s.rawT := rfl
@[simp] theorem storeResults_rawH (s : State) : (storeResults s).rawH = if wantsHum s.curOp then rawHumidity s.frame else s.rawH := rfl
@[simp] theorem storeResults_tempQ20 (s : State) : (storeResults s).tempQ20 = if wantsTemp s.curOp then decodeTemperature s.frame else s.tempQ20 := rfl
@[simp] theorem storeResults_humQ20 (s : State) : (storeResults s).humQ20 = if wantsHum s.curOp then decodeHumidity s.frame else s.humQ20 := rfl
@[simp] theorem storeResults_pins (s : State) : (storeResults s).pins = s.pins := rfl
@[simp] theorem storeResults_trace (s : State) : (storeResults s).trace = s.trace := rfl
@[simp] theorem storeResults_env (s : State) : (storeResults s).env = s.env := rfl
@[simp] theorem storeResults_envCount (s : State) : (storeResults s).envCount = s.envCount := rfl
@[simp] theorem storeResults_ticksPerMs (s : State) : (storeResults s).ticksPerMs = s.ticksPerMs := rfl

/-! ### `finishInit` -/

@[simp] theorem finishInit_frame (s : State) : (finishInit s).frame = s.frame := rfl
@[simp] theorem finishInit_seq (s : State) : (finishInit s).seq = .idle := rfl
@[simp] theorem finishInit_trPending (s : State) : (finishInit s).trPending = false := rfl
@[simp] theorem finishInit_frameFull (s : State) : (finishInit s).frameFull = s.frameFull := rfl
@[simp] theorem finishInit_crcOk (s : State) : (finishInit s).crcOk = s.crcOk := rfl
@[simp] theorem finishInit_hasTemp (s : State) : (finishInit s).hasTemp = s.hasTemp := rfl
@[simp] theorem finishInit_hasHum (s : State) : (finishInit s).hasHum = s.hasHum := rfl
@[simp] theorem finishInit_cfgBusIndex (s : State) : (finishInit s).cfgBusIndex = s.cfgBusIndex := rfl
@[simp] theorem finishInit_cfgCrcLenient (s : State) : (finishInit s).cfgCrcLenient = s.cfgCrcLenient := rfl
@[simp] theorem finishInit_cfgPollLimit (s : State) : (finishInit s).cfgPollLimit = s.cfgPollLimit := rfl
@[simp] theorem finishInit_cfgOpenFlags (s : State) : (finishInit s).cfgOpenFlags = s.cfgOpenFlags := rfl
@[simp] theorem finishInit_sessState (s : State) : (finishInit s).sessState = .ready := rfl
@[simp] theorem finishInit_handle (s : State) : (finishInit s).handle = s.handle := rfl
@[simp] theorem finishInit_handleValid (s : State) : (finishInit s).handleValid = s.handleValid := rfl
@[simp] theorem finishInit_curOp (s : State) : (finishInit s).curOp = s.curOp := rfl
@[simp] theorem finishInit_pollCnt (s : State) : (finishInit s).pollCnt = s.pollCnt := rfl
@[simp] theorem finishInit_dlyCnt (s : State) : (finishInit s).dlyCnt = s.dlyCnt := rfl
@[simp] theorem finishInit_rspValid (s : State) : (finishInit s).rspValid = true := rfl
@[simp] theorem finishInit_rspStatus (s : State) : (finishInit s).rspStatus = .ok := rfl
@[simp] theorem finishInit_rawT (s : State) : (finishInit s).rawT = s.rawT := rfl
@[simp] theorem finishInit_rawH (s : State) : (finishInit s).rawH = s.rawH := rfl
@[simp] theorem finishInit_tempQ20 (s : State) : (finishInit s).tempQ20 = s.tempQ20 := rfl
@[simp] theorem finishInit_humQ20 (s : State) : (finishInit s).humQ20 = s.humQ20 := rfl
@[simp] theorem finishInit_pins (s : State) : (finishInit s).pins = s.pins := rfl
@[simp] theorem finishInit_trace (s : State) : (finishInit s).trace = s.trace ++ [.done s.curOp .ok] := rfl
@[simp] theorem finishInit_env (s : State) : (finishInit s).env = s.env := rfl
@[simp] theorem finishInit_envCount (s : State) : (finishInit s).envCount = s.envCount := rfl
@[simp] theorem finishInit_ticksPerMs (s : State) : (finishInit s).ticksPerMs = s.ticksPerMs := rfl

/-! ### `expireRst` -/

@[simp] theorem expireRst_frame (s : State) : (expireRst s).frame = s.frame := rfl
@[simp] theorem expireRst_seq (s : State) : (expireRst s).seq = .idle := rfl
@[simp] theorem expireRst_trPending (s : State) : (expireRst s).trPending = false := rfl
@[simp] theorem expireRst_frameFull (s : State) : (expireRst s).frameFull = s.frameFull := rfl
@[simp] theorem expireRst_crcOk (s : State) : (expireRst s).crcOk = s.crcOk := rfl
@[simp] theorem expireRst_hasTemp (s : State) : (expireRst s).hasTemp = s.hasTemp := rfl
@[simp] theorem expireRst_hasHum (s : State) : (expireRst s).hasHum = s.hasHum := rfl
@[simp] theorem expireRst_cfgBusIndex (s : State) : (expireRst s).cfgBusIndex = s.cfgBusIndex := rfl
@[simp] theorem expireRst_cfgCrcLenient (s : State) : (expireRst s).cfgCrcLenient = s.cfgCrcLenient := rfl
@[simp] theorem expireRst_cfgPollLimit (s : State) : (expireRst s).cfgPollLimit = s.cfgPollLimit := rfl
@[simp] theorem expireRst_cfgOpenFlags (s : State) : (expireRst s).cfgOpenFlags = s.cfgOpenFlags := rfl
@[simp] theorem expireRst_sessState (s : State) : (expireRst s).sessState = s.sessState := rfl
@[simp] theorem expireRst_handle (s : State) : (expireRst s).handle = s.handle := rfl
@[simp] theorem expireRst_handleValid (s : State) : (expireRst s).handleValid = s.handleValid := rfl
@[simp] theorem expireRst_curOp (s : State) : (expireRst s).curOp = s.curOp := rfl
@[simp] theorem expireRst_pollCnt (s : State) : (expireRst s).pollCnt = s.pollCnt := rfl
@[simp] theorem expireRst_dlyCnt (s : State) : (expireRst s).dlyCnt = s.dlyCnt := rfl
@[simp] theorem expireRst_rspValid (s : State) : (expireRst s).rspValid = true := rfl
@[simp] theorem expireRst_rspStatus (s : State) : (expireRst s).rspStatus = .ok := rfl
@[simp] theorem expireRst_rawT (s : State) : (expireRst s).rawT = s.rawT := rfl
@[simp] theorem expireRst_rawH (s : State) : (expireRst s).rawH = s.rawH := rfl
@[simp] theorem expireRst_tempQ20 (s : State) : (expireRst s).tempQ20 = s.tempQ20 := rfl
@[simp] theorem expireRst_humQ20 (s : State) : (expireRst s).humQ20 = s.humQ20 := rfl
@[simp] theorem expireRst_pins (s : State) : (expireRst s).pins = s.pins := rfl
@[simp] theorem expireRst_trace (s : State) : (expireRst s).trace = s.trace ++ [.done s.curOp .ok] := rfl
@[simp] theorem expireRst_env (s : State) : (expireRst s).env = s.env := rfl
@[simp] theorem expireRst_envCount (s : State) : (expireRst s).envCount = s.envCount := rfl
@[simp] theorem expireRst_ticksPerMs (s : State) : (expireRst s).ticksPerMs = s.ticksPerMs := rfl

/-! ### `sampleInputs` -/

@[simp] theorem sampleInputs_frame (s : State) : (sampleInputs s).frame = s.frame := by unfold sampleInputs; split <;> rfl
@[simp] theorem sampleInputs_seq (s : State) : (sampleInputs s).seq = s.seq := by unfold sampleInputs; split <;> rfl
@[simp] theorem sampleInputs_trPending (s : State) : (sampleInputs s).trPending = s.trPending := by unfold sampleInputs; split <;> rfl
@[simp] theorem sampleInputs_frameFull (s : State) : (sampleInputs s).frameFull = s.frameFull := by unfold sampleInputs; split <;> rfl
@[simp] theorem sampleInputs_crcOk (s : State) : (sampleInputs s).crcOk = s.crcOk := by unfold sampleInputs; split <;> rfl
@[simp] theorem sampleInputs_hasTemp (s : State) : (sampleInputs s).hasTemp = s.hasTemp := by unfold sampleInputs; split <;> rfl
@[simp] theorem sampleInputs_hasHum (s : State) : (sampleInputs s).hasHum = s.hasHum := by unfold sampleInputs; split <;> rfl
@[simp] theorem sampleInputs_cfgBusIndex (s : State) : (sampleInputs s).cfgBusIndex = s.cfgBusIndex := by unfold sampleInputs; split <;> rfl
@[simp] theorem sampleInputs_cfgCrcLenient (s : State) : (sampleInputs s).cfgCrcLenient = s.cfgCrcLenient := by unfold sampleInputs; split <;> rfl
@[simp] theorem sampleInputs_cfgPollLimit (s : State) : (sampleInputs s).cfgPollLimit = s.cfgPollLimit := by unfold sampleInputs; split <;> rfl
@[simp] theorem sampleInputs_cfgOpenFlags (s : State) : (sampleInputs s).cfgOpenFlags = s.cfgOpenFlags := by unfold sampleInputs; split <;> rfl
@[simp] theorem sampleInputs_sessState (s : State) : (sampleInputs s).sessState = s.sessState := by unfold sampleInputs; split <;> rfl
@[simp] theorem sampleInputs_handle (s : State) : (sampleInputs s).handle = s.handle := by unfold sampleInputs; split <;> rfl
@[simp] theorem sampleInputs_handleValid (s : State) : (sampleInputs s).handleValid = s.handleValid := by unfold sampleInputs; split <;> rfl
@[simp] theorem sampleInputs_curOp (s : State) : (sampleInputs s).curOp = s.curOp := by unfold sampleInputs; split <;> rfl
@[simp] theorem sampleInputs_pollCnt (s : State) : (sampleInputs s).pollCnt = s.pollCnt := by unfold sampleInputs; split <;> rfl
@[simp] theorem sampleInputs_dlyCnt (s : State) : (sampleInputs s).dlyCnt = s.dlyCnt := by unfold sampleInputs; split <;> rfl
@[simp] theorem sampleInputs_rspValid (s : State) : (sampleInputs s).rspValid = s.rspValid := by unfold sampleInputs; split <;> rfl
@[simp] theorem sampleInputs_rspStatus (s : State) : (sampleInputs s).rspStatus = s.rspStatus := by unfold sampleInputs; split <;> rfl
@[simp] theorem sampleInputs_rawT (s : State) : (sampleInputs s).rawT = s.rawT := by unfold sampleInputs; split <;> rfl
@[simp] theorem sampleInputs_rawH (s : State) : (sampleInputs s).rawH = s.rawH := by unfold sampleInputs; split <;> rfl
@[simp] theorem sampleInputs_tempQ20 (s : State) : (sampleInputs s).tempQ20 = s.tempQ20 := by unfold sampleInputs; split <;> rfl
@[simp] theorem sampleInputs_humQ20 (s : State) : (sampleInputs s).humQ20 = s.humQ20 := by unfold sampleInputs; split <;> rfl
@[simp] theorem sampleInputs_trace (s : State) : (sampleInputs s).trace = s.trace := by unfold sampleInputs; split <;> rfl
@[simp] theorem sampleInputs_ticksPerMs (s : State) : (sampleInputs s).ticksPerMs = s.ticksPerMs := by unfold sampleInputs; split <;> rfl

/-! ### `hardwareReset` -/

@[simp] theorem hardwareReset_frame (s : State) : (hardwareReset s).frame = ⟨0#8, 0#8, 0#8, 0#8, 0#8, 0#8, 0#8⟩ := rfl
@[simp] theorem hardwareReset_seq (s : State) : (hardwareReset s).seq = .idle := rfl
@[simp] theorem hardwareReset_trPending (s : State) : (hardwareReset s).trPending = false := rfl
@[simp] theorem hardwareReset_frameFull (s : State) : (hardwareReset s).frameFull = false := rfl
@[simp] theorem hardwareReset_crcOk (s : State) : (hardwareReset s).crcOk = false := rfl
@[simp] theorem hardwareReset_hasTemp (s : State) : (hardwareReset s).hasTemp = false := rfl
@[simp] theorem hardwareReset_hasHum (s : State) : (hardwareReset s).hasHum = false := rfl
@[simp] theorem hardwareReset_cfgBusIndex (s : State) : (hardwareReset s).cfgBusIndex = s.pins.straps.busIndex := rfl
@[simp] theorem hardwareReset_cfgCrcLenient (s : State) : (hardwareReset s).cfgCrcLenient = s.pins.straps.crcLenient := rfl
@[simp] theorem hardwareReset_cfgPollLimit (s : State) : (hardwareReset s).cfgPollLimit = s.pins.straps.pollLimit := rfl
@[simp] theorem hardwareReset_cfgOpenFlags (s : State) : (hardwareReset s).cfgOpenFlags = s.pins.straps.openFlags := rfl
@[simp] theorem hardwareReset_sessState (s : State) : (hardwareReset s).sessState = .uninitialized := rfl
@[simp] theorem hardwareReset_handle (s : State) : (hardwareReset s).handle = 0#Config.handleW := rfl
@[simp] theorem hardwareReset_handleValid (s : State) : (hardwareReset s).handleValid = false := rfl
@[simp] theorem hardwareReset_curOp (s : State) : (hardwareReset s).curOp = 0#3 := rfl
@[simp] theorem hardwareReset_pollCnt (s : State) : (hardwareReset s).pollCnt = 0#16 := rfl
@[simp] theorem hardwareReset_dlyCnt (s : State) : (hardwareReset s).dlyCnt = 0 := rfl
@[simp] theorem hardwareReset_rspValid (s : State) : (hardwareReset s).rspValid = false := rfl
@[simp] theorem hardwareReset_rspStatus (s : State) : (hardwareReset s).rspStatus = .ok := rfl
@[simp] theorem hardwareReset_rawT (s : State) : (hardwareReset s).rawT = 0#20 := rfl
@[simp] theorem hardwareReset_rawH (s : State) : (hardwareReset s).rawH = 0#20 := rfl
@[simp] theorem hardwareReset_tempQ20 (s : State) : (hardwareReset s).tempQ20 = 0#29 := rfl
@[simp] theorem hardwareReset_humQ20 (s : State) : (hardwareReset s).humQ20 = 0#27 := rfl
@[simp] theorem hardwareReset_pins (s : State) : (hardwareReset s).pins = s.pins := rfl
@[simp] theorem hardwareReset_trace (s : State) : (hardwareReset s).trace = [] := rfl
@[simp] theorem hardwareReset_env (s : State) : (hardwareReset s).env = s.env := rfl
@[simp] theorem hardwareReset_envCount (s : State) : (hardwareReset s).envCount = s.envCount := rfl
@[simp] theorem hardwareReset_ticksPerMs (s : State) : (hardwareReset s).ticksPerMs = s.ticksPerMs := rfl

/-! ### `finishMeasurement` -/

@[simp] theorem finishMeasurement_frame (s : State) : (finishMeasurement s).frame = s.frame := rfl
@[simp] theorem finishMeasurement_seq (s : State) : (finishMeasurement s).seq = .idle := rfl
@[simp] theorem finishMeasurement_trPending (s : State) : (finishMeasurement s).trPending = false := rfl
@[simp] theorem finishMeasurement_frameFull (s : State) : (finishMeasurement s).frameFull = s.frameFull := rfl
@[simp] theorem finishMeasurement_crcOk (s : State) : (finishMeasurement s).crcOk = validateFrame true s.frame s.cfgCrcLenient := rfl
@[simp] theorem finishMeasurement_hasTemp (s : State) : (finishMeasurement s).hasTemp = if wantsTemp s.curOp then true else s.hasTemp := rfl
@[simp] theorem finishMeasurement_hasHum (s : State) : (finishMeasurement s).hasHum = if wantsHum s.curOp then true else s.hasHum := rfl
@[simp] theorem finishMeasurement_cfgBusIndex (s : State) : (finishMeasurement s).cfgBusIndex = s.cfgBusIndex := rfl
@[simp] theorem finishMeasurement_cfgCrcLenient (s : State) : (finishMeasurement s).cfgCrcLenient = s.cfgCrcLenient := rfl
@[simp] theorem finishMeasurement_cfgPollLimit (s : State) : (finishMeasurement s).cfgPollLimit = s.cfgPollLimit := rfl
@[simp] theorem finishMeasurement_cfgOpenFlags (s : State) : (finishMeasurement s).cfgOpenFlags = s.cfgOpenFlags := rfl
@[simp] theorem finishMeasurement_sessState (s : State) : (finishMeasurement s).sessState = .ready := rfl
@[simp] theorem finishMeasurement_handle (s : State) : (finishMeasurement s).handle = s.handle := rfl
@[simp] theorem finishMeasurement_handleValid (s : State) : (finishMeasurement s).handleValid = s.handleValid := rfl
@[simp] theorem finishMeasurement_curOp (s : State) : (finishMeasurement s).curOp = s.curOp := rfl
@[simp] theorem finishMeasurement_pollCnt (s : State) : (finishMeasurement s).pollCnt = s.pollCnt := rfl
@[simp] theorem finishMeasurement_dlyCnt (s : State) : (finishMeasurement s).dlyCnt = s.dlyCnt := rfl
@[simp] theorem finishMeasurement_rspValid (s : State) : (finishMeasurement s).rspValid = true := rfl
@[simp] theorem finishMeasurement_rspStatus (s : State) : (finishMeasurement s).rspStatus = .ok := rfl
@[simp] theorem finishMeasurement_rawT (s : State) : (finishMeasurement s).rawT = if wantsTemp s.curOp then rawTemp s.frame else s.rawT := rfl
@[simp] theorem finishMeasurement_rawH (s : State) : (finishMeasurement s).rawH = if wantsHum s.curOp then rawHumidity s.frame else s.rawH := rfl
@[simp] theorem finishMeasurement_tempQ20 (s : State) : (finishMeasurement s).tempQ20 = if wantsTemp s.curOp then decodeTemperature s.frame else s.tempQ20 := rfl
@[simp] theorem finishMeasurement_humQ20 (s : State) : (finishMeasurement s).humQ20 = if wantsHum s.curOp then decodeHumidity s.frame else s.humQ20 := rfl
@[simp] theorem finishMeasurement_pins (s : State) : (finishMeasurement s).pins = s.pins := rfl
@[simp] theorem finishMeasurement_trace (s : State) : (finishMeasurement s).trace = s.trace ++ [.done s.curOp .ok] := rfl
@[simp] theorem finishMeasurement_env (s : State) : (finishMeasurement s).env = s.env := rfl
@[simp] theorem finishMeasurement_envCount (s : State) : (finishMeasurement s).envCount = s.envCount := rfl
@[simp] theorem finishMeasurement_ticksPerMs (s : State) : (finishMeasurement s).ticksPerMs = s.ticksPerMs := rfl

theorem sampleInputs_cons (s : State) (p : Pins) (rest : List Pins) (h : s.env = p :: rest) :
    sampleInputs s = { s with pins := p, env := rest } := by
  simp [sampleInputs, h]

theorem sampleInputs_nil (s : State) (h : s.env = []) :
    sampleInputs s = { s with pins := Config.freePins s.envCount, envCount := s.envCount + 1 } := by
  simp [sampleInputs, h]

end Sys2Proof.Machine
end

