-- ==== Sys2Proof/Laws/Ops.lean ====
section
/-!
SUPPORT. Laws/Ops.lean: for each shared operation, one lemma that says everything it can do; and the decoding of every word
the core's ports can present.
-/

namespace Sys2Proof.Machine

/-- Everything a host operation can do. -/
theorem hostOp_cases (c : OpCode) (start : State → State) (s : State) :
    (s.seq ≠ .idle ∧ hostOp c start s = s) ∨
    (s.seq = .idle ∧ admits c s.sessState = true ∧ hostOp c start s = start (accept c s)) ∨
    (s.seq = .idle ∧ admits c s.sessState = false ∧ hostOp c start s = refuse c s) := by
  unfold hostOp busyOut
  by_cases h : s.seq = .idle
  · cases ha : admits c s.sessState <;> simp [h]
  · simp [h]

theorem hostOp_busy {c : OpCode} {start : State → State} {s : State} (h : s.seq ≠ .idle) : hostOp c start s = s := by
  simp [hostOp, busyOut, h]

theorem hostOp_run {c : OpCode} {start : State → State} {s : State} (h : s.seq = .idle)
    (ha : admits c s.sessState = true) : hostOp c start s = start (accept c s) := by
  simp [hostOp, busyOut, h, ha]

theorem hostOp_refuse {c : OpCode} {start : State → State} {s : State} (h : s.seq = .idle)
    (ha : admits c s.sessState = false) : hostOp c start s = refuse c s := by
  simp [hostOp, busyOut, h, ha]

/-- The issue step of a state that presents a request. -/
theorem issueRequest_of_port {s : State} {r : TrReq} (h : requestPort s = some r) :
    issueRequest s = emit (reqEvent r) { s with trPending := true } := by
  simp [issueRequest, h]

/-- A state whose request is not yet issued presents it. -/
theorem requestPort_of_not_pending {s : State} (h : s.trPending = false) : requestPort s = seqRequest s := by
  simp [requestPort, h]

/-- Everything a transport step can do. -/
theorem transact_cases (answer : State → State) (s : State) :
    (s.trPending = false ∧ transact answer s = issueRequest s) ∨
    (s.trPending = true ∧ s.pins.rspValid = true ∧ transact answer s = answer s) ∨
    (s.trPending = true ∧ s.pins.rspValid = false ∧ transact answer s = s) := by
  cases hp : s.trPending <;> cases hv : s.pins.rspValid <;> simp [transact, hp, hv]

theorem transact_issue {answer : State → State} {s : State} (hp : s.trPending = false) :
    transact answer s = issueRequest s := by
  simp [transact, hp]

theorem transact_answer {answer : State → State} {s : State} (hp : s.trPending = true) (hv : s.pins.rspValid = true) :
    transact answer s = answer s := by
  simp [transact, hp, hv]

theorem transact_wait {answer : State → State} {s : State} (hp : s.trPending = true) (hv : s.pins.rspValid = false) :
    transact answer s = s := by
  simp [transact, hp, hv]

/-- Everything a step in a delay state can do. -/
theorem delayStep_cases (expire : State → State) (s : State) :
    (s.dlyCnt = 0 ∧ delayStep expire s = expire s) ∨
    (s.dlyCnt ≠ 0 ∧ s.pins.tick = true ∧ delayStep expire s = { s with dlyCnt := s.dlyCnt - 1 }) ∨
    (s.dlyCnt ≠ 0 ∧ s.pins.tick = false ∧ delayStep expire s = s) := by
  unfold delayStep
  by_cases h : s.dlyCnt = 0
  · simp [h]
  · cases ht : s.pins.tick <;> simp [h]

/-- Everything a good status byte of the poll can lead to. -/
theorem pollStatus_cases (b : Byte) (s : State) :
    (busyFlag b = false ∧ pollStatus b s = { s with seq := .measFrame }) ∨
    (busyFlag b = true ∧ pollExhausted s.cfgPollLimit s.pollCnt = true ∧ pollStatus b s = raiseOutcome .timeout s) ∨
    (busyFlag b = true ∧ pollExhausted s.cfgPollLimit s.pollCnt = false ∧ pollStatus b s = { s with seq := .measPoll }) := by
  cases hb : busyFlag b <;> cases he : pollExhausted s.cfgPollLimit s.pollCnt <;> simp [pollStatus, hb, he]

/-- A read answered well has the length asked for and no error. -/
theorem readOk_iff (n : Nat) (p : Pins) : readOk n p = true ↔ p.rspErr = false ∧ p.rspLen.toNat = n := by
  simp [readOk]

/-- Every operation code on the host's port decodes. -/
theorem decode_hostop_word (c : OpCode) : decode .hostop [hostopByte c] = .ok (decodeHostop c) := by
  revert c; decide

/-- How an accepted operation starts, by its code. -/
def startOf (c : OpCode) : State → State :=
  if c = codeInit then enter .initOpen
  else if c = codeSoftReset then enter .rstWrite
  else if c = codeGetTemperature ∨ c = codeGetHumidity ∨ c = codeGetAll then startMeasurement
  else id

theorem opCode_cases (c : OpCode) :
    c = 0#3 ∨ c = 1#3 ∨ c = 2#3 ∨ c = 3#3 ∨ c = 4#3 ∨ c = 5#3 ∨ c = 6#3 ∨ c = 7#3 := by
  revert c; decide

/-- The meaning of the operation a code selects. -/
theorem exec_decodeHostop (c : OpCode) (s : State) : exec (decodeHostop c) s = .next (hostOp c (startOf c) s) := by
  rcases opCode_cases c with rfl | rfl | rfl | rfl | rfl | rfl | rfl | rfl <;> rfl

/-- The word of each request and of each command decodes to its row (30_encoding.md R93, R94). -/
theorem decode_open_word (b : BusIndex) (a : BitVec 7) (f : OpenFlags) :
    decode (requestWord (.open b a f)).format (requestWord (.open b a f)).bytes = .ok .trOpen := by
  show decode .trreq [trreqByte .open 0b000#3] = _
  decide

theorem decode_read1_word (h : Handle) :
    decode (requestWord (.read h 1)).format (requestWord (.read h 1)).bytes = .ok .trRead1 := by
  show decode .trreq [trreqByte .read 0b001#3] = _
  decide

theorem decode_read7_word (h : Handle) :
    decode (requestWord (.read h frameLen)).format (requestWord (.read h frameLen)).bytes = .ok .trRead7 := by
  show decode .trreq [trreqByte .read 0b111#3] = _
  decide

theorem decode_write_word (h : Handle) (c : WireCmd) :
    decode (requestWord (.write h (cmdBytes c))).format (requestWord (.write h (cmdBytes c))).bytes =
      .ok (match c with | .init => .trWrite3 | .trigger => .trWrite3 | .softReset => .trWrite1) := by
  cases c
  · show decode .trreq [trreqByte .write 0b011#3] = _
    decide
  · show decode .trreq [trreqByte .write 0b011#3] = _
    decide
  · show decode .trreq [trreqByte .write 0b001#3] = _
    decide

theorem decode_command_word (c : WireCmd) :
    decode (commandWord c).format (commandWord c).bytes =
      .ok (match c with | .init => .cmdInit | .trigger => .cmdTrigger | .softReset => .cmdSoftReset) := by
  cases c <;> decide

end Sys2Proof.Machine
end

