-- ==== Sys2Proof/Laws/Step.lean ====
section
/-!
SUPPORT. Laws/Step.lean: what one step does, said once: `step_eq`. The step function goes through the decoder; `coreStep` is
the same step written by sequencer state, for proofs.
-/

namespace Sys2Proof.Machine

/-- What the core does in one step when reset is not asserted, by sequencer state. -/
def runStep (s : State) : State :=
  match s.seq with
  | .idle => if s.pins.opValid then hostOp s.pins.opCode (startOf s.pins.opCode) s else s
  | .initOpen => transact answerOpen s
  | .initStatus => transact answerInitStatus s
  | .initWrite => transact answerInitWrite s
  | .initDelay => delayStep finishInit s
  | .measTrigger => transact answerTrigger s
  | .measSettle => delayStep expireSettle s
  | .measPoll => transact answerPoll s
  | .measFrame => transact answerFrameRead s
  | .rstWrite => transact answerRstWrite s
  | .rstDelay => delayStep expireRst s

/-- What the core does in one step. -/
def coreStep (s : State) : State := if s.pins.reset then hardwareReset s else runStep s

/-- What a step does with a word the core presents, once the word is known to decode. -/
theorem step_of_word {s : State} {e : Encoded} {i : Instr} (hr : s.pins.reset = false) (hf : fetchWord s = some e)
    (hd : decode e.format e.bytes = .ok i) : step s = thenSample (exec i s) := by
  simp [step, hr, hf, hd]

theorem step_of_no_word {s : State} (hr : s.pins.reset = false) (hf : fetchWord s = none) :
    step s = .next (sampleInputs (timerStep s)) := by
  simp [step, hr, hf]

/-- In a transport state the issue and the answer both run the state's transaction. -/
theorem step_transport {s : State} {answer : State → State} {r : TrReq} {ri ai : Instr} {e : Encoded}
    (hr : s.pins.reset = false) (hi : s.seq ≠ .idle) (hq : seqRequest s = some r)
    (hd : decode (requestWord r).format (requestWord r).bytes = .ok ri) (ha : answerWord s = some e)
    (hda : decode e.format e.bytes = .ok ai) (hx : exec ri s = .next (transact answer s))
    (hxa : exec ai s = .next (transact answer s)) (ht : timerStep s = s) :
    step s = .next (sampleInputs (transact answer s)) := by
  cases hp : s.trPending
  · rw [step_of_word hr (e := requestWord r) (by simp [fetchWord, hi, hp, requestPort, hq]) hd, hx]
    rfl
  · cases hv : s.pins.rspValid
    · rw [step_of_no_word hr (by simp [fetchWord, hi, hp, hv]), ht, transact_wait hp hv]
    · rw [step_of_word hr (e := e) (by simp [fetchWord, hi, hp, hv, ha]) hda, hxa]
      rfl

/-- In a delay state no word is presented. -/
theorem fetchWord_delay {s : State} (hi : s.seq ≠ .idle) (hq : seqRequest s = none) (hc : seqCommand s.seq = none) :
    fetchWord s = none := by
  cases hp : s.trPending <;> simp [fetchWord, hi, hp, requestPort, hq, answerWord, hc]

/-- A step without reset is the step of the sequencer's state. -/
theorem step_eq_runStep {s : State} (hr : s.pins.reset = false) : step s = .next (sampleInputs (runStep s)) := by
  unfold runStep
  cases hq : s.seq
  case idle =>
    cases ho : s.pins.opValid
    · rw [step_of_no_word hr (by simp [fetchWord, hq, ho])]
      simp [timerStep, hq]
    · rw [step_of_word hr (e := ⟨.hostop, [hostopByte s.pins.opCode]⟩) (by simp [fetchWord, hq, ho])
        (decode_hostop_word _), exec_decodeHostop]
      rfl
  case initOpen =>
    refine step_transport (r := (.open s.cfgBusIndex devAddr s.cfgOpenFlags)) (e := requestWord (.open s.cfgBusIndex devAddr s.cfgOpenFlags)) hr (by simp [hq])
      (by simp [seqRequest, hq]) (decode_open_word _ _ _) (by simp [answerWord, hq, seqCommand, seqRequest])
      (decode_open_word _ _ _) ?_ ?_ (by simp [timerStep, hq])
    · simp [exec, execTrOpen, hq]
    · simp [exec, execTrOpen, hq]
  case initStatus =>
    refine step_transport (r := (.read s.handle 1)) (e := requestWord (.read s.handle 1)) hr (by simp [hq])
      (by simp [seqRequest, hq]) (decode_read1_word _) (by simp [answerWord, hq, seqCommand, seqRequest])
      (decode_read1_word _) ?_ ?_ (by simp [timerStep, hq])
    · simp [exec, execTrRead1, hq]
    · simp [exec, execTrRead1, hq]
  case initWrite =>
    refine step_transport (r := (.write s.handle (cmdBytes .init))) (e := commandWord .init) hr (by simp [hq])
      (by simp [seqRequest, hq]) (decode_write_word _ .init) (by simp [answerWord, hq, seqCommand])
      (decode_command_word .init) ?_ ?_ (by simp [timerStep, hq])
    · simp [exec, execTrWrite3, hq]
    · simp [exec, execCmdInit, hq]
  case measTrigger =>
    refine step_transport (r := (.write s.handle (cmdBytes .trigger))) (e := commandWord .trigger) hr (by simp [hq])
      (by simp [seqRequest, hq]) (decode_write_word _ .trigger) (by simp [answerWord, hq, seqCommand])
      (decode_command_word .trigger) ?_ ?_ (by simp [timerStep, hq])
    · simp [exec, execTrWrite3, hq]
    · simp [exec, execCmdTrigger, hq]
  case measPoll =>
    refine step_transport (r := (.read s.handle 1)) (e := requestWord (.read s.handle 1)) hr (by simp [hq])
      (by simp [seqRequest, hq]) (decode_read1_word _) (by simp [answerWord, hq, seqCommand, seqRequest])
      (decode_read1_word _) ?_ ?_ (by simp [timerStep, hq])
    · simp [exec, execTrRead1, hq]
    · simp [exec, execTrRead1, hq]
  case measFrame =>
    refine step_transport (r := (.read s.handle frameLen)) (e := requestWord (.read s.handle frameLen)) hr (by simp [hq])
      (by simp [seqRequest, hq]) (decode_read7_word _) (by simp [answerWord, hq, seqCommand, seqRequest])
      (decode_read7_word _) ?_ ?_ (by simp [timerStep, hq])
    · simp [exec, execTrRead7, hq]
    · simp [exec, execTrRead7, hq]
  case rstWrite =>
    refine step_transport (r := (.write s.handle (cmdBytes .softReset))) (e := commandWord .softReset) hr (by simp [hq])
      (by simp [seqRequest, hq]) (decode_write_word _ .softReset) (by simp [answerWord, hq, seqCommand])
      (decode_command_word .softReset) ?_ ?_ (by simp [timerStep, hq])
    · simp [exec, execTrWrite1, hq]
    · simp [exec, execCmdSoftReset, hq]
  all_goals
    rw [step_of_no_word hr (fetchWord_delay (by simp [hq]) (by simp [seqRequest, hq]) (by simp [hq, seqCommand]))]
    simp [timerStep, hq]

/-- One step is the core's step, then the inputs of the next step are taken. -/
theorem step_eq (s : State) : step s = .next (sampleInputs (coreStep s)) := by
  unfold coreStep
  cases hr : s.pins.reset
  · simpa using step_eq_runStep hr
  · simp [step, hr]

theorem step_reset {s : State} (h : s.pins.reset = true) : step s = .next (sampleInputs (hardwareReset s)) := by
  simp [step_eq, coreStep, h]

theorem step_run {s : State} (h : s.pins.reset = false) : step s = .next (sampleInputs (runStep s)) := by
  simp [step_eq, coreStep, h]

/-- A step that answers `next t` went to the core's step. -/
theorem step_next_iff {s t : State} : step s = .next t ↔ t = sampleInputs (coreStep s) := by
  rw [step_eq, Host.Outcome.next.injEq, eq_comm]

end Sys2Proof.Machine
end

