-- ==== Sys2Proof/Laws/Moves.lean ====
section
/-!
SUPPORT. Laws/Moves.lean: everything one step of the core can do, said once as a relation with one constructor per rule, and
the proof that a step is one of them. A proof about every step cites `step_moves` and goes by cases.
-/

namespace Sys2Proof.Machine

/-- One move of the core when reset is not asserted. -/
inductive Move (s : State) : State → Prop where
  /-- IDLE, no operation presented -/
  | idleWait (hq : s.seq = .idle) (ho : s.pins.opValid = false) : Move s s
  /-- an acceptance that is refused (43_session_ops.md R172) -/
  | refused (hq : s.seq = .idle) (ho : s.pins.opValid = true) (ha : admits s.pins.opCode s.sessState = false) :
    Move s { s with curOp := s.pins.opCode, rspStatus := .invalid, rspValid := true, seq := .idle, trPending := false,
                    trace := s.trace ++ [.accept s.pins.opCode, .done s.pins.opCode .invalid] }
  /-- `init` accepted (R173) -/
  | initAccepted (hq : s.seq = .idle) (ho : s.pins.opValid = true) (hc : s.pins.opCode = codeInit)
      (hs : s.sessState = .uninitialized) :
    Move s { s with curOp := codeInit, rspValid := false, seq := .initOpen, trPending := false,
                    trace := s.trace ++ [.accept codeInit] }
  /-- a measurement accepted (R180) -/
  | measureAccepted (hq : s.seq = .idle) (ho : s.pins.opValid = true) (hc : isGet s.pins.opCode = true)
      (hs : s.sessState = .ready) :
    Move s { s with curOp := s.pins.opCode, rspValid := false, sessState := .measuring, crcOk := false, hasTemp := false,
                    hasHum := false, rawT := 0#20, rawH := 0#20, tempQ20 := 0#29, humQ20 := 0#27, seq := .measTrigger,
                    trPending := false, trace := s.trace ++ [.accept s.pins.opCode] }
  /-- `soft_reset` accepted (R190) -/
  | resetAccepted (hq : s.seq = .idle) (ho : s.pins.opValid = true) (hc : s.pins.opCode = codeSoftReset)
      (hs : s.sessState = .ready) :
    Move s { s with curOp := codeSoftReset, rspValid := false, seq := .rstWrite, trPending := false,
                    trace := s.trace ++ [.accept codeSoftReset] }
  /-- the issue step (20_memory.md R66) -/
  | issue (r : TrReq) (hr : seqRequest s = some r) (hp : s.trPending = false) :
    Move s { s with trPending := true, trace := s.trace ++ [reqEvent r] }
  /-- waiting for an answer (20_memory.md R68) -/
  | wait (hu : usesTransport s.seq = true) (hp : s.trPending = true) (hv : s.pins.rspValid = false) : Move s s
  /-- the answer fails: `raise IoError` (60_exceptions.md R201, R205) -/
  | ioError (r : TrReq) (hr : seqRequest s = some r) (hp : s.trPending = true) (hv : s.pins.rspValid = true)
      (hf : answerFails s = true) :
    Move s { s with trPending := false, sessState := .failed, rspStatus := .ioError, rspValid := true, seq := .idle,
                    trace := s.trace ++ [.rsp (reqKind r) (portAnswer (reqKind r) s.pins), .done s.curOp .ioError] }
  /-- the open answered (43_session_ops.md R175) -/
  | opened (hq : s.seq = .initOpen) (hp : s.trPending = true) (hv : s.pins.rspValid = true) (he : s.pins.rspErr = false) :
    Move s { s with trPending := false, handle := s.pins.rspHandle, handleValid := true, seq := .initStatus,
                    trace := s.trace ++ [.rsp .open (.okHandle s.pins.rspHandle)] }
  /-- the status of `init`, bit 3 set (R176) -/
  | calibrated (hq : s.seq = .initStatus) (hp : s.trPending = true) (hv : s.pins.rspValid = true)
      (he : s.pins.rspErr = false) (hl : s.pins.rspLen = 1#4) (hb : calFlag (answerByte s.pins 0) = true) :
    Move s { s with trPending := false, frame := { s.frame with b0 := answerByte s.pins 0 }, frameFull := false,
                    sessState := .ready, rspStatus := .ok, rspValid := true, seq := .idle,
                    trace := s.trace ++ [.rsp .read (.okBytes 1#4 [answerByte s.pins 0]), .done s.curOp .ok] }
  /-- the status of `init`, bit 3 clear (R176) -/
  | uncalibrated (hq : s.seq = .initStatus) (hp : s.trPending = true) (hv : s.pins.rspValid = true)
      (he : s.pins.rspErr = false) (hl : s.pins.rspLen = 1#4) (hb : calFlag (answerByte s.pins 0) = false) :
    Move s { s with trPending := false, frame := { s.frame with b0 := answerByte s.pins 0 }, frameFull := false,
                    seq := .initWrite, trace := s.trace ++ [.rsp .read (.okBytes 1#4 [answerByte s.pins 0])] }
  /-- a write answered, its delay starts (R177, R191, 42_measurement_fsm.md R151) -/
  | delayStarted (q : Seq) (ms : Nat)
      (hq : (s.seq = .initWrite ∧ q = .initDelay ∧ ms = 10) ∨ (s.seq = .measTrigger ∧ q = .measSettle ∧ ms = 80) ∨
        (s.seq = .rstWrite ∧ q = .rstDelay ∧ ms = 20))
      (hp : s.trPending = true) (hv : s.pins.rspValid = true) (he : s.pins.rspErr = false) :
    Move s { s with trPending := false, seq := q, dlyCnt := ms * s.ticksPerMs.val,
                    trace := s.trace ++ [.rsp .write .okWrite, .delay ms] }
  /-- a poll's status byte, bit 7 clear (R154) -/
  | pollClear (hq : s.seq = .measPoll) (hp : s.trPending = true) (hv : s.pins.rspValid = true)
      (he : s.pins.rspErr = false) (hl : s.pins.rspLen = 1#4) (hb : busyFlag (answerByte s.pins 0) = false) :
    Move s { s with trPending := false, frame := { s.frame with b0 := answerByte s.pins 0 }, frameFull := false,
                    pollCnt := if s.cfgPollLimit != 0#16 then s.pollCnt + 1#16 else s.pollCnt, seq := .measFrame,
                    trace := s.trace ++ [.rsp .read (.okBytes 1#4 [answerByte s.pins 0])] }
  /-- a poll's status byte, bit 7 set, at the bound (R154, R155) -/
  | pollTimeout (hq : s.seq = .measPoll) (hp : s.trPending = true) (hv : s.pins.rspValid = true)
      (he : s.pins.rspErr = false) (hl : s.pins.rspLen = 1#4) (hb : busyFlag (answerByte s.pins 0) = true)
      (h0 : s.cfgPollLimit ≠ 0#16) (hc : s.pollCnt + 1#16 = s.cfgPollLimit) :
    Move s { s with trPending := false, frame := { s.frame with b0 := answerByte s.pins 0 }, frameFull := false,
                    pollCnt := s.pollCnt + 1#16, sessState := .ready, rspStatus := .timeout, rspValid := true,
                    seq := .idle,
                    trace := s.trace ++ [.rsp .read (.okBytes 1#4 [answerByte s.pins 0]), .done s.curOp .timeout] }
  /-- a poll's status byte, bit 7 set, below the bound (R154) -/
  | pollBusy (hq : s.seq = .measPoll) (hp : s.trPending = true) (hv : s.pins.rspValid = true)
      (he : s.pins.rspErr = false) (hl : s.pins.rspLen = 1#4) (hb : busyFlag (answerByte s.pins 0) = true)
      (hc : s.cfgPollLimit = 0#16 ∨ s.pollCnt + 1#16 ≠ s.cfgPollLimit) :
    Move s { s with trPending := false, frame := { s.frame with b0 := answerByte s.pins 0 }, frameFull := false,
                    pollCnt := if s.cfgPollLimit != 0#16 then s.pollCnt + 1#16 else s.pollCnt, seq := .measPoll,
                    trace := s.trace ++ [.rsp .read (.okBytes 1#4 [answerByte s.pins 0])] }
  /-- the frame read answered (R156, R157) -/
  | frameRead (hq : s.seq = .measFrame) (hp : s.trPending = true) (hv : s.pins.rspValid = true)
      (he : s.pins.rspErr = false) (hl : s.pins.rspLen = 7#4) :
    Move s { s with
      trPending := false, frame := answerFrame s.pins, frameFull := true,
      crcOk := validateFrame true (answerFrame s.pins) s.cfgCrcLenient,
      rawT := if wantsTemp s.curOp then rawTemp (answerFrame s.pins) else s.rawT,
      tempQ20 := if wantsTemp s.curOp then decodeTemperature (answerFrame s.pins) else s.tempQ20,
      hasTemp := if wantsTemp s.curOp then true else s.hasTemp,
      rawH := if wantsHum s.curOp then rawHumidity (answerFrame s.pins) else s.rawH,
      humQ20 := if wantsHum s.curOp then decodeHumidity (answerFrame s.pins) else s.humQ20,
      hasHum := if wantsHum s.curOp then true else s.hasHum,
      sessState := .ready, rspStatus := .ok, rspValid := true, seq := .idle,
      trace := s.trace ++ [.rsp .read (.okBytes 7#4 (frameBytes (answerFrame s.pins))), .done s.curOp .ok] }
  /-- a tick counted (20_memory.md R74) -/
  | tick (hq : s.seq = .initDelay ∨ s.seq = .measSettle ∨ s.seq = .rstDelay) (h0 : s.dlyCnt ≠ 0)
      (ht : s.pins.tick = true) : Move s { s with dlyCnt := s.dlyCnt - 1 }
  /-- a delay state without a tick -/
  | delayWait (hq : s.seq = .initDelay ∨ s.seq = .measSettle ∨ s.seq = .rstDelay) (h0 : s.dlyCnt ≠ 0)
      (ht : s.pins.tick = false) : Move s s
  /-- the end of `init`'s delay (R178) -/
  | initExpired (hq : s.seq = .initDelay) (h0 : s.dlyCnt = 0) :
    Move s { s with sessState := .ready, rspStatus := .ok, rspValid := true, seq := .idle, trPending := false,
                    trace := s.trace ++ [.done s.curOp .ok] }
  /-- the end of the settle delay (42_measurement_fsm.md R152) -/
  | settleExpired (hq : s.seq = .measSettle) (h0 : s.dlyCnt = 0) :
    Move s { s with pollCnt := 0#16, seq := .measPoll, trPending := false }
  /-- the end of the soft reset's delay (R191) -/
  | resetExpired (hq : s.seq = .rstDelay) (h0 : s.dlyCnt = 0) :
    Move s { s with rspStatus := .ok, rspValid := true, seq := .idle, trPending := false,
                    trace := s.trace ++ [.done s.curOp .ok] }

/-- A read of one byte answered well carries that byte. -/
theorem portAnswer_read1 {p : Pins} (he : p.rspErr = false) (hl : p.rspLen = 1#4) :
    portAnswer .read p = .okBytes 1#4 [answerByte p 0] := by
  simp [portAnswer, he, hl, frameBytes, answerFrame]

/-- A read of seven bytes answered well carries the frame. -/
theorem portAnswer_read7 {p : Pins} (he : p.rspErr = false) (hl : p.rspLen = 7#4) :
    portAnswer .read p = .okBytes 7#4 (frameBytes (answerFrame p)) := by
  simp [portAnswer, he, hl, frameBytes]

theorem readOk_one {p : Pins} : readOk 1 p = true ↔ p.rspErr = false ∧ p.rspLen = 1#4 := by
  simp [readOk_iff, BitVec.toNat_eq]

theorem readOk_seven {p : Pins} : readOk 7 p = true ↔ p.rspErr = false ∧ p.rspLen = 7#4 := by
  simp [readOk_iff, BitVec.toNat_eq]

/-- The cells "run" of the acceptance table (43_session_ops.md R172). -/
theorem admits_cases {c : OpCode} {ss : SessState} (h : admits c ss = true) :
    (c = codeInit ∧ ss = .uninitialized) ∨ (isGet c = true ∧ ss = .ready) ∨ (c = codeSoftReset ∧ ss = .ready) := by
  cases ss <;> simp_all [admits, isGet, or_assoc]

theorem isGet_iff {c : OpCode} : isGet c = true ↔ c = 2#3 ∨ c = 3#3 ∨ c = 4#3 := by
  simp [isGet, codeGetTemperature, codeGetHumidity, codeGetAll, or_assoc]

/-- A failing answer is `raise IoError`. -/
theorem move_ioError {s : State} {r : TrReq} (hr : seqRequest s = some r) (hp : s.trPending = true)
    (hv : s.pins.rspValid = true) (hf : answerFails s = true) :
    Move s (raiseOutcome .ioError (receiveAnswer (reqKind r) s)) := by
  have h := Move.ioError r hr hp hv hf
  simpa [raiseOutcome, complete, receiveAnswer, emit, raisedStatus, raisedSession] using h

/-- A transport state: issue, wait, or the answer rule. -/
theorem move_transact {s : State} {answer : State → State} {r : TrReq} (hu : usesTransport s.seq = true)
    (hr : seqRequest s = some r) (ha : s.trPending = true → s.pins.rspValid = true → Move s (answer s)) :
    Move s (transact answer s) := by
  rcases transact_cases answer s with ⟨hp, h⟩ | ⟨hp, hv, h⟩ | ⟨hp, hv, h⟩ <;> rw [h]
  · rw [issueRequest_of_port (r := r) (by rw [requestPort_of_not_pending hp, hr])]
    exact .issue r hr hp
  · exact ha hp hv
  · exact .wait hu hp hv

/-- A delay state: count, wait, or the exit rule. -/
theorem move_delay {s : State} {expire : State → State} (hq : s.seq = .initDelay ∨ s.seq = .measSettle ∨ s.seq = .rstDelay)
    (he : s.dlyCnt = 0 → Move s (expire s)) : Move s (delayStep expire s) := by
  rcases delayStep_cases expire s with ⟨h0, h⟩ | ⟨h0, ht, h⟩ | ⟨h0, ht, h⟩ <;> rw [h]
  · exact he h0
  · exact .tick hq h0 ht
  · exact .delayWait hq h0 ht

/-- A write state. -/
theorem move_write {s : State} {r : TrReq} {q : Seq} {ms : Nat} (hu : usesTransport s.seq = true)
    (hr : seqRequest s = some r) (hk : reqKind r = .write) (hf : answerFails s = s.pins.rspErr)
    (hq : (s.seq = .initWrite ∧ q = .initDelay ∧ ms = 10) ∨ (s.seq = .measTrigger ∧ q = .measSettle ∧ ms = 80) ∨
        (s.seq = .rstWrite ∧ q = .rstDelay ∧ ms = 20)) :
    Move s (transact (fun s => if s.pins.rspErr then raiseOutcome .ioError (receiveAnswer .write s)
      else startDelay q ms (receiveAnswer .write s)) s) := by
  refine move_transact hu hr fun hp hv => ?_
  cases he : s.pins.rspErr
  · simpa [startDelay, receiveAnswer, emit, portAnswer, he] using Move.delayStarted q ms hq hp hv he
  · simpa [hk] using move_ioError hr hp hv (hf.trans he)

/-- EVERY STEP OF THE CORE IS ONE OF THE MOVES. -/
theorem runStep_move (s : State) : Move s (runStep s) := by
  unfold runStep
  cases hq : s.seq <;> simp only
  case idle =>
    cases ho : s.pins.opValid
    · simpa using Move.idleWait hq ho
    · cases ha : admits s.pins.opCode s.sessState
      · simpa [hostOp_refuse hq ha, refuse, complete, accept, emit] using Move.refused hq ho ha
      · simp only [if_true, hostOp_run hq ha]
        rcases admits_cases ha with ⟨hc, hs⟩ | ⟨hc, hs⟩ | ⟨hc, hs⟩
        · simpa [startOf, hc, enter, accept, emit] using Move.initAccepted hq ho hc hs
        · have h := Move.measureAccepted hq ho hc hs
          rcases isGet_iff.1 hc with h' | h' | h' <;>
            simpa [startOf, h', codeInit, codeSoftReset, codeGetTemperature, codeGetHumidity, codeGetAll,
              startMeasurement, clearResults, enter, accept, emit] using h
        · simpa [startOf, hc, codeInit, codeSoftReset, enter, accept, emit] using Move.resetAccepted hq ho hc hs
  case initOpen =>
    have hr : seqRequest s = some (.open s.cfgBusIndex devAddr s.cfgOpenFlags) := by simp [seqRequest, hq]
    refine move_transact (by simp [hq, usesTransport]) hr fun hp hv => ?_
    cases he : s.pins.rspErr
    · simpa [answerOpen, receiveAnswer, emit, portAnswer, he] using Move.opened hq hp hv he
    · simpa [answerOpen, he, reqKind] using move_ioError hr hp hv (by simp [answerFails, hq, he])
  case initStatus =>
    have hr : seqRequest s = some (.read s.handle 1) := by simp [seqRequest, hq]
    refine move_transact (by simp [hq, usesTransport]) hr fun hp hv => ?_
    cases ho : readOk 1 s.pins
    · simpa [answerInitStatus, ho, reqKind] using move_ioError hr hp hv (by simp [answerFails, hq, ho])
    · obtain ⟨he, hl⟩ := readOk_one.1 ho
      cases hb : calFlag (answerByte s.pins 0)
      · simpa [answerInitStatus, ho, initStatusByte, hb, storeStatus, receiveAnswer, emit, portAnswer_read1 he hl] using
          Move.uncalibrated hq hp hv he hl hb
      · simpa [answerInitStatus, ho, initStatusByte, hb, finishInit, complete, storeStatus, receiveAnswer, emit,
          portAnswer_read1 he hl] using Move.calibrated hq hp hv he hl hb
  case initWrite =>
    exact move_write (r := .write s.handle (cmdBytes .init)) (by simp [hq, usesTransport]) (by simp [seqRequest, hq]) rfl
      (by simp [answerFails, hq]) (by simp [hq, initMs])
  case initDelay =>
    refine move_delay (by simp [hq]) fun h0 => ?_
    simpa [finishInit, complete, emit] using Move.initExpired hq h0
  case measTrigger =>
    exact move_write (r := .write s.handle (cmdBytes .trigger)) (by simp [hq, usesTransport]) (by simp [seqRequest, hq]) rfl
      (by simp [answerFails, hq]) (by simp [hq, settleMs])
  case measSettle =>
    refine move_delay (by simp [hq]) fun h0 => ?_
    simpa [expireSettle, enter] using Move.settleExpired hq h0
  case measPoll =>
    have hr : seqRequest s = some (.read s.handle 1) := by simp [seqRequest, hq]
    refine move_transact (by simp [hq, usesTransport]) hr fun hp hv => ?_
    cases ho : readOk 1 s.pins
    · simpa [answerPoll, ho, reqKind] using move_ioError hr hp hv (by simp [answerFails, hq, ho])
    · obtain ⟨he, hl⟩ := readOk_one.1 ho
      cases hb : busyFlag (answerByte s.pins 0)
      · simpa [answerPoll, ho, pollStatus, hb, countPoll, storeStatus, receiveAnswer, emit, portAnswer_read1 he hl] using
          Move.pollClear hq hp hv he hl hb
      · by_cases h0 : s.cfgPollLimit = 0#16
        · simpa [answerPoll, ho, pollStatus, hb, pollExhausted, h0, countPoll, storeStatus, receiveAnswer, emit,
            portAnswer_read1 he hl] using Move.pollBusy hq hp hv he hl hb (.inl h0)
        · by_cases hc : s.pollCnt + 1#16 = s.cfgPollLimit
          · simpa [answerPoll, ho, pollStatus, hb, pollExhausted, h0, hc, countPoll, storeStatus, receiveAnswer, emit,
              raiseOutcome, complete, raisedStatus, raisedSession, portAnswer_read1 he hl] using
              Move.pollTimeout hq hp hv he hl hb h0 hc
          · simpa [answerPoll, ho, pollStatus, hb, pollExhausted, h0, hc, countPoll, storeStatus, receiveAnswer, emit,
              portAnswer_read1 he hl] using Move.pollBusy hq hp hv he hl hb (.inr hc)
  case measFrame =>
    have hr : seqRequest s = some (.read s.handle frameLen) := by simp [seqRequest, hq]
    refine move_transact (by simp [hq, usesTransport]) hr fun hp hv => ?_
    cases ho : readOk 7 s.pins
    · simpa [answerFrameRead, frameLen, ho, reqKind] using move_ioError hr hp hv (by simp [answerFails, hq, ho])
    · obtain ⟨he, hl⟩ := readOk_seven.1 ho
      simpa [answerFrameRead, frameLen, ho, finishMeasurement, storeResults, complete, storeFrame, receiveAnswer, emit,
        portAnswer_read7 he hl] using Move.frameRead hq hp hv he hl
  case rstWrite =>
    exact move_write (r := .write s.handle (cmdBytes .softReset)) (by simp [hq, usesTransport]) (by simp [seqRequest, hq])
      rfl (by simp [answerFails, hq]) (by simp [hq, resetMs])
  case rstDelay =>
    refine move_delay (by simp [hq]) fun h0 => ?_
    simpa [expireRst, complete, emit] using Move.resetExpired hq h0

/-- Everything one step can do: a hardware reset, or a move; and then the inputs of the next step are taken. -/
theorem step_moves {s t : State} (h : step s = .next t) :
    (s.pins.reset = true ∧ t = sampleInputs (hardwareReset s)) ∨
    (s.pins.reset = false ∧ ∃ u, Move s u ∧ t = sampleInputs u) := by
  cases hr : s.pins.reset
  · rw [step_run hr] at h
    injection h with h
    exact .inr ⟨rfl, _, runStep_move s, h.symm⟩
  · rw [step_reset hr] at h
    injection h with h
    exact .inl ⟨rfl, h.symm⟩

end Sys2Proof.Machine
end

