-- ==== Sys2Proof/Laws/PerInstr.lean ====
section
/-!
SUPPORT. Laws/PerInstr.lean: a family of statements about the instructions as syntax, one lemma per constructor. Family
`TableWord`: the row's word of opcode_table.json decodes to the row's instruction, whose encoding is well formed.
-/

namespace Sys2Proof.Laws.TableWord

/-- The width and the "match" of each row of the table (30_encoding.md R91, R93, R94). -/
def row : Instr → Nat × Nat
  | .opNone => (3, 0b000)
  | .opInit => (3, 0b001)
  | .opGetTemperature => (3, 0b010)
  | .opGetHumidity => (3, 0b011)
  | .opGetAll => (3, 0b100)
  | .opSoftReset => (3, 0b101)
  | .opReserved6 => (3, 0b110)
  | .opReserved7 => (3, 0b111)
  | .trOpen => (5, 0b00000)
  | .trWrite1 => (5, 0b01001)
  | .trWrite3 => (5, 0b01011)
  | .trRead1 => (5, 0b10001)
  | .trRead7 => (5, 0b10111)
  | .cmdInit => (24, 0xBE0800)
  | .cmdTrigger => (24, 0xAC3300)
  | .cmdSoftReset => (8, 0xBA)

/-- The row's word decodes to the instruction, and the instruction and its encoding are well formed. -/
def Statement (i : Instr) : Prop :=
  decodeTableWord (row i).1 (row i).2 = some i ∧ i.wf = true ∧ (encode i).wf = true

theorem opNone : Statement .opNone := by unfold Statement; decide
theorem opInit : Statement .opInit := by unfold Statement; decide
theorem opGetTemperature : Statement .opGetTemperature := by unfold Statement; decide
theorem opGetHumidity : Statement .opGetHumidity := by unfold Statement; decide
theorem opGetAll : Statement .opGetAll := by unfold Statement; decide
theorem opSoftReset : Statement .opSoftReset := by unfold Statement; decide
theorem opReserved6 : Statement .opReserved6 := by unfold Statement; decide
theorem opReserved7 : Statement .opReserved7 := by unfold Statement; decide
theorem trOpen : Statement .trOpen := by unfold Statement; decide
theorem trWrite1 : Statement .trWrite1 := by unfold Statement; decide
theorem trWrite3 : Statement .trWrite3 := by unfold Statement; decide
theorem trRead1 : Statement .trRead1 := by unfold Statement; decide
theorem trRead7 : Statement .trRead7 := by unfold Statement; decide
theorem cmdInit : Statement .cmdInit := by unfold Statement; decide
theorem cmdTrigger : Statement .cmdTrigger := by unfold Statement; decide
theorem cmdSoftReset : Statement .cmdSoftReset := by unfold Statement; decide

/-- The lemmas together: the family holds of every instruction. -/
theorem all (i : Instr) : Statement i := by
  cases i
  · exact opNone
  · exact opInit
  · exact opGetTemperature
  · exact opGetHumidity
  · exact opGetAll
  · exact opSoftReset
  · exact opReserved6
  · exact opReserved7
  · exact trOpen
  · exact trWrite1
  · exact trWrite3
  · exact trRead1
  · exact trRead7
  · exact cmdInit
  · exact cmdTrigger
  · exact cmdSoftReset

end Sys2Proof.Laws.TableWord
end

