-- ==== Sys2Proof/Laws/Trace.lean ====
section
/-!
SUPPORT. Laws/Trace.lean: the small lemmas of the event automaton of Safety.lean: it runs through a trace piece by piece, and
what it looks at in a state is not touched when the inputs of the next step are taken.
-/

namespace Sys2Proof.Machine

@[simp] theorem runPhases_nil (k : Straps) (p : Phase) : runPhases k p [] = some p := rfl

@[simp] theorem runPhases_cons (k : Straps) (p : Phase) (e : Event) (es : List Event) :
    runPhases k p (e :: es) = (nextPhase k p e).bind fun q => runPhases k q es := by
  simp only [runPhases]
  cases nextPhase k p e <;> rfl

/-- A trace and then more events: the automaton goes on from the phase it was in. -/
theorem runPhases_append (k : Straps) (p : Phase) (a b : List Event) :
    runPhases k p (a ++ b) = (runPhases k p a).bind fun q => runPhases k q b := by
  induction a generalizing p with
  | nil => rfl
  | cons e es ih => cases h : nextPhase k p e <;> simp [h, ih]

@[simp] theorem sampledStraps_sampleInputs (s : State) : sampledStraps (sampleInputs s) = sampledStraps s := by
  simp [sampledStraps]

@[simp] theorem phaseFits_sampleInputs (s : State) (p : Phase) : phaseFits (sampleInputs s) p = phaseFits s p := by
  simp [phaseFits, idleView, PollCountFits]

/-- Where an observer's "run" cells and the core's acceptance table agree (43_session_ops.md R172). -/
theorem View.runs_eq_admits {s : State} {v : View} (h : idleView s = some v) (c : OpCode) :
    v.runs c = admits c s.sessState := by
  cases hs : s.sessState <;> simp_all [idleView] <;> subst h <;> simp [View.runs, admits, isGet]

end Sys2Proof.Machine
end

