-- ==== Sys2Proof/Tests/Slice0.lean ====
section
/-!
SUPPORT. Tests/Slice0.lean: the model's own tests. Expected values come from the encoding tables of 30_encoding.md and from
the vectors of 95_test_vectors.md (cited V<n>, S<n>), never from the model. Then, for every statement with hypotheses, a
witness: concrete states and operands that meet them.
-/

namespace Sys2Proof.Tests

open Sys2Proof.Machine Sys2Proof.Spec

/-! ### Well-formedness: each check refuses an ill-formed term -/

theorem test_wf_hostop_code : (Encoded.mk .hostop [0x08#8]).wf = false := by decide
theorem test_wf_trreq_unassigned : (Encoded.mk .trreq [0x0A#8]).wf = false := by decide
theorem test_wf_trreq_kind_never_issued : (Encoded.mk .trreq [0x18#8]).wf = false := by decide
theorem test_wf_wire1_unassigned : (Encoded.mk .wire1 [0xBB#8]).wf = false := by decide
theorem test_wf_wire3_unassigned : (Encoded.mk .wire3 [0xBE#8, 0x00#8, 0x08#8]).wf = false := by decide
theorem test_wf_wire3_length : (Encoded.mk .wire3 [0xBA#8]).wf = false := by decide
theorem test_wf_hostop_length : (Encoded.mk .hostop []).wf = false := by decide
theorem test_wf_open_address : (TrReq.open 1#Config.busW 0x39#7 0#Config.flagsW).wf = false := by decide
theorem test_wf_write_unknown : (TrReq.write 7#Config.handleW [0xAC#8, 0x33#8, 0x01#8]).wf = false := by decide
theorem test_wf_write_empty : (TrReq.write 7#Config.handleW []).wf = false := by decide
theorem test_wf_read_length : (TrReq.read 7#Config.handleW 2).wf = false := by decide
theorem test_wf_requests : (TrReq.open 1#Config.busW 0x38#7 0#Config.flagsW).wf = true ∧ (TrReq.write 7#Config.handleW [0xBA#8]).wf = true ∧
    (TrReq.read 7#Config.handleW 7).wf = true := by decide
theorem test_wf_every_instr : ∀ i ∈ [Instr.opNone, .opInit, .trOpen, .trRead7, .cmdInit, .cmdSoftReset], i.wf = true := by
  decide

/-! ### Decoding: every row's word, written out from the tables R91, R94, R93 -/

theorem test_word_opNone : decode .hostop [0b00000000#8] = .ok .opNone := by decide
theorem test_word_opInit : decode .hostop [0b00000001#8] = .ok .opInit := by decide
theorem test_word_opGetTemperature : decode .hostop [0b00000010#8] = .ok .opGetTemperature := by decide
theorem test_word_opGetHumidity : decode .hostop [0b00000011#8] = .ok .opGetHumidity := by decide
theorem test_word_opGetAll : decode .hostop [0b00000100#8] = .ok .opGetAll := by decide
theorem test_word_opSoftReset : decode .hostop [0b00000101#8] = .ok .opSoftReset := by decide
theorem test_word_opReserved6 : decode .hostop [0b00000110#8] = .ok .opReserved6 := by decide
theorem test_word_opReserved7 : decode .hostop [0b00000111#8] = .ok .opReserved7 := by decide
theorem test_word_trOpen : decode .trreq [0b00000000#8] = .ok .trOpen := by decide
theorem test_word_trWrite1 : decode .trreq [0b00001001#8] = .ok .trWrite1 := by decide
theorem test_word_trWrite3 : decode .trreq [0b00001011#8] = .ok .trWrite3 := by decide
theorem test_word_trRead1 : decode .trreq [0b00010001#8] = .ok .trRead1 := by decide
theorem test_word_trRead7 : decode .trreq [0b00010111#8] = .ok .trRead7 := by decide
theorem test_word_cmdInit : decode .wire3 [0b10111110#8, 0b00001000#8, 0b00000000#8] = .ok .cmdInit := by decide
theorem test_word_cmdTrigger : decode .wire3 [0b10101100#8, 0b00110011#8, 0b00000000#8] = .ok .cmdTrigger := by decide
theorem test_word_cmdSoftReset : decode .wire1 [0b10111010#8] = .ok .cmdSoftReset := by decide

/-- Words the tables assign to no row are rejected, each by its name. -/
theorem test_words_rejected :
    decode .hostop [0b00001000#8] = .error (.hostopBitsAbove 0x08#8) ∧
    decode .trreq [0b00011000#8] = .error (.kindNeverIssued 0#3) ∧
    decode .trreq [0b00001000#8] = .error (.lengthNeverIssued .write 0#3) ∧
    decode .trreq [0b00010010#8] = .error (.lengthNeverIssued .read 2#3) ∧
    decode .trreq [0b00000001#8] = .error (.lengthNeverIssued .open 1#3) ∧
    decode .trreq [0b00100000#8] = .error (.trreqBitsAbove 0x20#8) ∧
    decode .wire1 [0xBB#8] = .error (.unknownCommand [0xBB#8]) ∧
    decode .wire3 [0xBA#8] = .error (.wrongLength .wire3 1) := by decide

/-- The table's own numbers (R93: first byte most significant). -/
theorem test_table_words : decodeTableWord 24 0xBE0800 = some .cmdInit ∧ decodeTableWord 24 0x0008BE = none ∧
    decodeTableWord 5 0b10111 = some .trRead7 ∧ decodeTableWord 3 0 = some .opNone ∧ decodeTableWord 8 0 = some .trOpen ∧
    decodeTableWord 8 0xBA = some .cmdSoftReset ∧ decodeTableWord 8 0x18 = none := by decide

/-! ### The pure functions (95_test_vectors.md sections 2 to 4) -/

theorem test_crc_v2_1 : crc8 [0x1C#8, 0x00#8, 0x00#8, 0x00#8, 0x00#8, 0x00#8] = 0x58#8 := by decide +kernel
theorem test_crc_v2_2 : crc8 [] = 0xFF#8 := by decide
theorem test_crc_v2_9 : crc8 [0x31#8, 0x32#8, 0x33#8, 0x34#8, 0x35#8, 0x36#8, 0x37#8, 0x38#8, 0x39#8] = 0xF7#8 := by decide +kernel
theorem test_crc_v2_17 : crc8 [0x1C#8, 0x65#8, 0xB4#8, 0x25#8, 0xCD#8, 0x26#8] = 0xC6#8 := by decide +kernel

/-- V4.5: the one class on which the policies differ; V4.6: 0xFF that is also the CRC; V4.11: an absent frame. -/
theorem test_validate :
    validateFrame true ⟨0x08#8, 0x80#8, 0x00#8, 0x00#8, 0x00#8, 0x80#8, 0xFF#8⟩ false = false ∧
    validateFrame true ⟨0x08#8, 0x80#8, 0x00#8, 0x00#8, 0x00#8, 0x80#8, 0xFF#8⟩ true = true ∧
    validateFrame true ⟨0x08#8, 0x80#8, 0x00#8, 0x00#8, 0x00#8, 0xA0#8, 0xFF#8⟩ false = true ∧
    validateFrame false ⟨0x1C#8, 0x00#8, 0x00#8, 0x00#8, 0x00#8, 0x00#8, 0x58#8⟩ true = false := by decide +kernel

/-- V3.9: one count below 0 degrees. -/
theorem test_decode_v3_9 :
    rawHumidity ⟨0x1C#8, 0x7F#8, 0xFF#8, 0xF3#8, 0xFF#8, 0xFF#8, 0xB2#8⟩ = 0x7FFFF#20 ∧
    rawTemp ⟨0x1C#8, 0x7F#8, 0xFF#8, 0xF3#8, 0xFF#8, 0xFF#8, 0xB2#8⟩ = 0x3FFFF#20 ∧
    decodeHumidity ⟨0x1C#8, 0x7F#8, 0xFF#8, 0xF3#8, 0xFF#8, 0xFF#8, 0xB2#8⟩ = 52428700#27 ∧
    (decodeTemperature ⟨0x1C#8, 0x7F#8, 0xFF#8, 0xF3#8, 0xFF#8, 0xFF#8, 0xB2#8⟩).toInt = -200 := by decide

/-- V3.2: the maxima. -/
theorem test_decode_v3_2 :
    (decodeTemperature ⟨0x00#8, 0xFF#8, 0xFF#8, 0xFF#8, 0xFF#8, 0xFF#8, 0x00#8⟩).toInt = 157286200 ∧
    (decodeHumidity ⟨0x00#8, 0xFF#8, 0xFF#8, 0xFF#8, 0xFF#8, 0xFF#8, 0x00#8⟩).toNat = 104857500 := by decide

/-! ### One step of each instruction -/

/-- A session state with a handle, idle, inputs at rest, one more step of inputs at rest to come. -/
def idleIn (ss : SessState) : State :=
  { State.reset with sessState := ss, handle := 7#Config.handleW, handleValid := ss != .uninitialized, env := [quietPins] }

/-- The same with the host presenting an operation code. -/
def presenting (c : OpCode) (ss : SessState) : State :=
  { idleIn ss with pins := { quietPins with opValid := true, opCode := c } }

/-- A sequencer state in an operation. -/
def inStep (q : Seq) (ss : SessState) (c : OpCode) : State :=
  { idleIn ss with seq := q, curOp := c, frame := ⟨1#8, 2#8, 3#8, 4#8, 5#8, 6#8, 7#8⟩ }

/-- The answer port carrying `len` bytes. -/
def answering (len : BitVec 4) (data : BitVec 56) : Pins :=
  { quietPins with rspValid := true, rspLen := len, rspRdata := data, rspHandle := 9#Config.handleW }

/-- The answer port carrying `IoError`. -/
def failing : Pins := { quietPins with rspValid := true, rspErr := true }

/-- A transport state whose request is outstanding, with what the answer port carries. -/
def outstanding (q : Seq) (ss : SessState) (c : OpCode) (p : Pins) : State :=
  { inStep q ss c with trPending := true, pins := p }

/-- A delay state with `n` ticks to go. -/
def delaying (q : Seq) (ss : SessState) (c : OpCode) (n : Nat) (tick : Bool) : State :=
  { inStep q ss c with dlyCnt := n, pins := { quietPins with tick := tick } }

/-- The state an outcome goes on in. -/
def nextState : Host.Outcome State Fault Refusal → Option State
  | .next s => some s
  | .fault _ => none
  | .refused _ => none

/-- V6.1: code 0 in `Failed` is refused. -/
theorem test_exec_opNone : (nextState (exec .opNone (presenting 0#3 .failed))).map
    (fun s => (s.trace, s.rspStatus, s.sessState)) =
    some ([.accept 0#3, .done 0#3 .invalid], .invalid, .failed) := by decide
theorem test_exec_opReserved6 : (nextState (exec .opReserved6 (presenting 6#3 .uninitialized))).map
    (fun s => (s.trace, s.curOp, s.rspValid)) = some ([.accept 6#3, .done 6#3 .invalid], 6#3, true) := by decide
theorem test_exec_opReserved7 : (nextState (exec .opReserved7 (presenting 7#3 .ready))).map
    (fun s => (s.trace, s.seq, s.sessState)) = some ([.accept 7#3, .done 7#3 .invalid], .idle, .ready) := by decide
/-- V6.1: `init` runs in `Uninitialized`, is refused in `Ready`. -/
theorem test_exec_opInit_runs : (nextState (exec .opInit (presenting 1#3 .uninitialized))).map
    (fun s => (s.trace, s.seq, s.rspValid)) = some ([.accept 1#3], .initOpen, false) := by decide
theorem test_exec_opInit_refused : (nextState (exec .opInit (presenting 1#3 .ready))).map
    (fun s => (s.trace, s.seq)) = some ([.accept 1#3, .done 1#3 .invalid], .idle) := by decide
theorem test_exec_opGetTemperature : (nextState (exec .opGetTemperature (presenting 2#3 .ready))).map
    (fun s => (s.curOp, s.seq, s.sessState)) = some (2#3, .measTrigger, .measuring) := by decide
theorem test_exec_opGetHumidity : (nextState (exec .opGetHumidity (presenting 3#3 .uninitialized))).map
    (fun s => (s.rspStatus, s.seq, s.sessState)) = some (.invalid, .idle, .uninitialized) := by decide
theorem test_exec_opGetAll : (nextState (exec .opGetAll { presenting 4#3 .ready with rawT := 5#20, hasTemp := true })).map
    (fun s => (s.rawT, s.hasTemp, s.seq)) = some (0#20, false, .measTrigger) := by decide
theorem test_exec_opSoftReset : (nextState (exec .opSoftReset { presenting 5#3 .ready with rawT := 5#20 })).map
    (fun s => (s.rawT, s.sessState, s.seq)) = some (5#20, .ready, .rstWrite) := by decide
/-- V6.2a: the open fails. -/
theorem test_exec_trOpen_fails : (nextState (exec .trOpen (outstanding .initOpen .uninitialized 1#3 failing))).map
    (fun s => (s.trace, s.sessState, s.handleValid)) =
    some ([.rsp .open .ioError, .done 1#3 .ioError], .failed, false) := by decide
theorem test_exec_trOpen_issue : (nextState (exec .trOpen (inStep .initOpen .uninitialized 1#3))).map
    (fun s => (s.trace, s.trPending)) = some ([.open 0#Config.busW 0x38#7 0#Config.flagsW], true) := by decide
theorem test_exec_trWrite1 : (nextState (exec .trWrite1 (inStep .rstWrite .ready 5#3))).map
    (fun s => (s.trace, s.trPending, s.seq)) = some ([.write 7#Config.handleW [0xBA#8]], true, .rstWrite) := rfl
theorem test_exec_trWrite3 : (nextState (exec .trWrite3 (inStep .measTrigger .measuring 4#3))).map
    (fun s => (s.trace, s.trPending)) = some ([.write 7#Config.handleW [0xAC#8, 0x33#8, 0x00#8]], true) := rfl
/-- V5.11: limit 1, one busy read is a timeout. -/
theorem test_exec_trRead1_timeout :
    (nextState (exec .trRead1 { outstanding .measPoll .measuring 4#3 (answering 1#4 0x80#56) with cfgPollLimit := 1#16 })).map
      (fun s => (s.rspStatus, s.sessState, s.pollCnt, s.frame.b0, s.frame.b1)) =
    some (.timeout, .ready, 1#16, 0x80#8, 2#8) := by decide
/-- V5.12: limit 1, a clear first read goes on. -/
theorem test_exec_trRead1_clear :
    (nextState (exec .trRead1 { outstanding .measPoll .measuring 4#3 (answering 1#4 0x00#56) with cfgPollLimit := 1#16 })).map
      (fun s => (s.seq, s.pollCnt, s.rspValid)) = some (.measFrame, 1#16, false) := by decide
/-- V5.18: a humidity measurement with the frame of S7. -/
theorem test_exec_trRead7 :
    (nextState (exec .trRead7 (outstanding .measFrame .measuring 3#3 (answering 7#4 0xD6000080008008#56)))).map
      (fun s => (s.rawH, s.humQ20, s.rawT, s.crcOk, s.hasTemp, s.rspStatus)) =
    some (0x80008#20, 52429600#27, 0#20, true, false, .ok) := by decide +kernel
/-- V5.6: a short read stores nothing. -/
theorem test_exec_trRead7_short :
    (nextState (exec .trRead7 (outstanding .measFrame .measuring 4#3 (answering 6#4 0x000080008008#56)))).map
      (fun s => (s.frame.b0, s.frameFull, s.sessState, s.trace)) =
    some (1#8, false, .failed, [.rsp .read (.okBytes 6#4 [0x08#8, 0x80#8, 0x00#8, 0x80#8, 0x00#8, 0x00#8]),
      .done 4#3 .ioError]) := by decide
/-- V6.2e, V6.2g: the initialize command delivered, and not. -/
theorem test_exec_cmdInit : (nextState (exec .cmdInit (outstanding .initWrite .uninitialized 1#3 (answering 0#4 0#56)))).map
    (fun s => (s.seq, s.dlyCnt, s.trace)) = some (.initDelay, 10, [.rsp .write .okWrite, .delay 10]) := by decide
theorem test_exec_cmdInit_fails : (nextState (exec .cmdInit (outstanding .initWrite .uninitialized 1#3 failing))).map
    (fun s => (s.seq, s.sessState, s.trace)) =
    some (.idle, .failed, [.rsp .write .ioError, .done 1#3 .ioError]) := by decide
theorem test_exec_cmdTrigger : (nextState (exec .cmdTrigger (outstanding .measTrigger .measuring 4#3 (answering 0#4 0#56)))).map
    (fun s => (s.seq, s.dlyCnt, s.trace)) = some (.measSettle, 80, [.rsp .write .okWrite, .delay 80]) := by decide
theorem test_exec_cmdSoftReset : (nextState (exec .cmdSoftReset (outstanding .rstWrite .ready 5#3 (answering 0#4 0#56)))).map
    (fun s => (s.seq, s.dlyCnt, s.sessState)) = some (.rstDelay, 20, .ready) := by decide
/-- R178: the end of `init`'s delay. -/
theorem test_step_initDelay : (nextState (step (delaying .initDelay .uninitialized 1#3 0 false))).map
    (fun s => (s.sessState, s.trace, s.seq)) = some (.ready, [.done 1#3 .ok], .idle) := by decide
/-- V6.4: reset in the stuck state of V5.16. -/
theorem test_step_reset :
    (nextState (step { outstanding .measFrame .measuring 4#3 (answering 7#4 0#56) with
      pins := { answering 7#4 0#56 with reset := true } })).map
      (fun s => (regStatus s, regSeq s, s.trace, s.frame.b1)) = some (0x0000#16, 0x00#8, [], 0#8) := by decide
/-- S7: STATUS, FRAME_LO and FRAME_HI at the end of the example. -/
theorem test_registers_s7 :
    (nextState (exec .trRead7 (outstanding .measFrame .measuring 4#3 (answering 7#4 0xD6000080008008#56)))).map
      (fun s => (regStatus s, regFrameLo s, regFrameHi s)) = some (0x27D4#16, 0x80008008#32, 0xD60000#24) := by decide +kernel

/-! ### The event automaton: what R159, R173 and R190 forbid is refused -/

/-- The events of an `init` of a calibrated sensor (R173, worked example), with handle and straps 0. -/
def initTrace : List Event :=
  [.accept 1#3, .open 0#Config.busW 0x38#7 0#Config.flagsW, .rsp .open (.okHandle 0#Config.handleW),
    .read 0#Config.handleW 1, .rsp .read (.okBytes 1#4 [0x18#8]), .done 1#3 .ok]

theorem test_trace_init : runPhases quietPins.straps (.rest .fresh) initTrace = some (.rest (.ready 0#Config.handleW)) := by
  decide

/-- R159: under the bound `N` the `N`-th busy byte is followed by `ST_TIMEOUT` and by no further read; before it, and
without a bound, by a further read and by no `ST_TIMEOUT`. -/
theorem test_trace_poll_bound (h : Handle) (k : Straps) :
    (k.pollLimit = 2#16 →
      runPhases k (.pollDue 4#3 h 1) [.read h 1, .rsp .read (.okBytes 1#4 [0x80#8]), .done 4#3 .timeout] =
        some (.rest (.ready h)) ∧
      runPhases k (.pollDue 4#3 h 1) [.read h 1, .rsp .read (.okBytes 1#4 [0x80#8]), .read h 1] = none ∧
      runPhases k (.pollDue 4#3 h 0) [.read h 1, .rsp .read (.okBytes 1#4 [0x80#8]), .done 4#3 .timeout] = none) ∧
    (k.pollLimit = 0#16 →
      runPhases k (.pollDue 4#3 h 9) [.read h 1, .rsp .read (.okBytes 1#4 [0x80#8]), .done 4#3 .timeout] = none ∧
      runPhases k (.pollDue 4#3 h 9) [.read h 1, .rsp .read (.okBytes 1#4 [0x80#8]), .read h 1] =
        some (.polling 4#3 h 10)) := by
  refine ⟨fun hk => ⟨?_, ?_, ?_⟩, fun hk => ⟨?_, ?_⟩⟩ <;>
    simp [nextPhase, expectRead, expectReadAnswer, afterRead, afterPollByte, expectDone, hk, busyFlag]

/-- R190, R174: a write on another handle than the session's, and an open on another bus than the strapped one, are no
events of a trace. -/
theorem test_trace_handle_and_bus (k : Straps) (h h' : Handle) (hh : h ≠ h') (b : BusIndex) (hb : b ≠ k.busIndex) :
    nextPhase k (.accepted 5#3 (.ready h)) (.write h' [0xBA#8]) = none ∧
    nextPhase k (.accepted 1#3 .fresh) (.open b 0x38#7 k.openFlags) = none := by
  simp [nextPhase, afterAccept, hh, hb]

/-! ### Witnesses: what meets the hypotheses of the statements -/

/-- The input levels for the steps to come, for witnesses about runs. -/
def tickPins : Pins := { quietPins with tick := true }

/-- RequestPortFollowsTable, every sequencer state. -/
theorem witness_RequestPortFollowsTable : ∀ q ∈ [Seq.idle, .initOpen, .initStatus, .initWrite, .initDelay, .measTrigger,
    .measSettle, .measPoll, .measFrame, .rstWrite, .rstDelay],
    (inStep q .ready 1#3).trPending = false ∧ (inStep q .ready 1#3).seq = q := by decide

/-- CrcAlgebra, the clause with a hypothesis: the empty sequences and two of one byte. -/
theorem witness_CrcAlgebra : ([] : List Byte).length = ([] : List Byte).length ∧ [0x1C#8].length = [0xFF#8].length := by
  decide

/-- FieldsAreConcatenations, the worked examples (V3.11). -/
theorem witness_FieldsAreConcatenations :
    ∃ f : Frame, f.b1 = 0x65#8 ∧ f.b2 = 0xB4#8 ∧ f.b3 = 0x25#8 ∧ f.b4 = 0xCD#8 ∧ f.b5 = 0x26#8 :=
  ⟨⟨0x1C#8, 0x65#8, 0xB4#8, 0x25#8, 0xCD#8, 0x26#8, 0xC6#8⟩, rfl, rfl, rfl, rfl, rfl⟩

/-- FrameBitsUsedOnce: frames that agree in everything; frames one count apart (V3.15, V3.16 beside V3.1). -/
theorem witness_FrameBitsUsedOnce :
    (∃ f g : Frame, rawTemp f = rawTemp g ∧ rawHumidity f = rawHumidity g ∧ f.b0 = g.b0 ∧ f.b6 = g.b6) ∧
    (∃ f g : Frame, (rawTemp f).toNat < (rawTemp g).toNat) ∧
    (∃ f g : Frame, (rawHumidity f).toNat < (rawHumidity g).toNat) :=
  ⟨⟨⟨1#8, 2#8, 3#8, 4#8, 5#8, 6#8, 7#8⟩, ⟨1#8, 2#8, 3#8, 4#8, 5#8, 6#8, 7#8⟩, rfl, rfl, rfl, rfl⟩,
   ⟨⟨0#8, 0#8, 0#8, 0#8, 0#8, 0#8, 0#8⟩, ⟨0#8, 0#8, 0#8, 0#8, 0#8, 1#8, 0#8⟩, by decide⟩,
   ⟨⟨0#8, 0#8, 0#8, 0#8, 0#8, 0#8, 0#8⟩, ⟨0#8, 0#8, 0#8, 0x10#8, 0#8, 0#8, 0#8⟩, by decide⟩⟩

/-- AcceptanceTable, "run": the first and last codes that run, each in its state. -/
theorem witness_AcceptanceTable_run :
    ((presenting 1#3 .uninitialized).seq = .idle ∧ (presenting 1#3 .uninitialized).sessState ≠ .measuring ∧
      runsIn 1#3 (presenting 1#3 .uninitialized).sessState) ∧
    (∀ c ∈ [2#3, 3#3, 4#3, 5#3], (presenting c .ready).seq = .idle ∧ (presenting c .ready).sessState ≠ .measuring ∧
      runsIn c (presenting c .ready).sessState) := by
  unfold runsIn; decide

/-- AcceptanceTable, "refuse": codes 0 and 7 at the ends of the range, `init` again, an operation too early, `Failed`. -/
theorem witness_AcceptanceTable_refuse :
    ∀ p ∈ [(0#3, SessState.uninitialized), (7#3, .ready), (1#3, .ready), (2#3, .uninitialized), (5#3, .failed),
      (1#3, .failed)],
      (presenting p.1 p.2).seq = .idle ∧ (presenting p.1 p.2).sessState ≠ .measuring ∧
        ¬ runsIn p.1 (presenting p.1 p.2).sessState := by
  unfold runsIn; decide

/-- ReservedCodesRefuse, every session state an acceptance can see. -/
theorem witness_ReservedCodesRefuse : ∀ ss ∈ [SessState.uninitialized, .ready, .failed], (idleIn ss).seq = .idle := by
  decide

theorem witness_InitStarts : (presenting 1#3 .uninitialized).seq = .idle ∧
    (presenting 1#3 .uninitialized).sessState = .uninitialized := by decide

theorem witness_MeasurementsStart : (presenting 2#3 .ready).seq = .idle ∧ (presenting 2#3 .ready).sessState = .ready := by
  decide

theorem witness_SoftResetStarts : (presenting 5#3 .ready).seq = .idle ∧ (presenting 5#3 .ready).sessState = .ready := by
  decide

/-- BusyCoreSeesNoOperation: a busy core; an idle one to which an operation is presented. -/
theorem witness_BusyCoreSeesNoOperation : (inStep .measPoll .measuring 4#3).seq ≠ .idle ∧
    (presenting 1#3 .uninitialized).pins.reset = false ∧ (presenting 1#3 .uninitialized).seq = .idle ∧
    (presenting 1#3 .uninitialized).pins.opValid = true := by decide

/-- AcceptsOnlyWhenReady: a step that records an acceptance. -/
theorem witness_AcceptsOnlyWhenReady : ∃ (s t : State) (c : OpCode) (post : List Event),
    step s = .next t ∧ t.trace = s.trace ++ .accept c :: post :=
  ⟨presenting 0#3 .ready, _, 0#3, [.done 0#3 .invalid], step_eq _, by decide⟩

/-- IssueSteps, every transport state. -/
theorem witness_IssueSteps : ∀ q ∈ [Seq.initOpen, .initStatus, .initWrite, .measTrigger, .measPoll, .measFrame, .rstWrite],
    (inStep q .ready 1#3).trPending = false ∧ (inStep q .ready 1#3).seq = q := by decide

/-- The answered transport states of OpenAnswered, InitStatusRead, InitializeWrite, TriggerAnswered, SoftResetSteps,
PollAnswered and FrameReadCompletes, with an answer of `IoError`. -/
theorem witness_answers_ioError : ∀ q ∈ [Seq.initOpen, .initStatus, .initWrite, .measTrigger, .measPoll, .measFrame,
    .rstWrite],
    (outstanding q .ready 1#3 failing).seq = q ∧ (outstanding q .ready 1#3 failing).trPending = true ∧
    (outstanding q .ready 1#3 failing).pins.rspValid = true ∧ (outstanding q .ready 1#3 failing).pins.rspErr = true := by
  decide

/-- OpenAnswered, InitializeWrite, TriggerAnswered, SoftResetSteps with an answer of `Ok`. -/
theorem witness_answers_ok : ∀ q ∈ [Seq.initOpen, .initWrite, .measTrigger, .rstWrite],
    (outstanding q .ready 1#3 (answering 0#4 0#56)).seq = q ∧
    (outstanding q .ready 1#3 (answering 0#4 0#56)).trPending = true ∧
    (outstanding q .ready 1#3 (answering 0#4 0#56)).pins.rspValid = true ∧
    (outstanding q .ready 1#3 (answering 0#4 0#56)).pins.rspErr = false := by decide

/-- The issue clauses of InitStatusRead, InitializeWrite, SoftResetSteps and FrameReadCompletes. -/
theorem witness_issue_clauses : ∀ q ∈ [Seq.initStatus, .initWrite, .rstWrite, .measFrame],
    (inStep q .ready 1#3).seq = q ∧ (inStep q .ready 1#3).trPending = false := by decide

/-- InitStatusRead: lengths beside 1 on both sides; bit 3 the only bit set; every bit but bit 3 set (V6.2). -/
theorem witness_InitStatusRead :
    (answering 0#4 0#56).rspLen ≠ 1#4 ∧ (answering 2#4 0#56).rspLen ≠ 1#4 ∧
    (answering 1#4 0x08#56).rspErr = false ∧ (answering 1#4 0x08#56).rspLen = 1#4 ∧
    (answerByte (answering 1#4 0x08#56) 0).getLsbD 3 = true ∧
    (answerByte (answering 1#4 0xF7#56) 0).getLsbD 3 = false := by decide

/-- PollAnswered: bit 7 alone, every bit but bit 7 (V5.10); at the bound 1 and at the bound 0xFFFF; one short of it;
no bound. -/
theorem witness_PollAnswered :
    (answerByte (answering 1#4 0x7F#56) 0).getLsbD 7 = false ∧ (answerByte (answering 1#4 0x80#56) 0).getLsbD 7 = true ∧
    (answering 1#4 0x80#56).rspErr = false ∧ (answering 1#4 0x80#56).rspLen = 1#4 ∧ (answering 2#4 0x80#56).rspLen ≠ 1#4 ∧
    ((1#16 : PollCount) ≠ 0#16 ∧ (0#16 : PollCount) + 1#16 = 1#16) ∧
    ((0xFFFF#16 : PollCount) ≠ 0#16 ∧ (0xFFFE#16 : PollCount) + 1#16 = 0xFFFF#16) ∧
    (0xFFFD#16 : PollCount) + 1#16 ≠ 0xFFFF#16 ∧
    ({ outstanding .measPoll .measuring 4#3 (answering 1#4 0x80#56) with
        cfgPollLimit := 0xFFFF#16, pollCnt := 0xFFFE#16 } : State).seq = .measPoll ∧
    (outstanding .measPoll .measuring 4#3 (answering 1#4 0x80#56)).cfgPollLimit = 0#16 := by decide

/-- FrameReadCompletes: the length 7, and 6 and 8 beside it. -/
theorem witness_FrameReadCompletes : (answering 7#4 0#56).rspErr = false ∧ (answering 7#4 0#56).rspLen = 7#4 ∧
    (answering 6#4 0#56).rspLen ≠ 7#4 ∧ (answering 8#4 0#56).rspLen ≠ 7#4 := by decide

/-- The delay states of InitDelayStep, SettleStep and SoftResetSteps: at 0, and at 1 with and without a tick. -/
theorem witness_delay_states : ∀ q ∈ [Seq.initDelay, .measSettle, .rstDelay],
    (delaying q .ready 1#3 0 true).seq = q ∧ (delaying q .ready 1#3 0 true).pins.reset = false ∧
    (delaying q .ready 1#3 0 true).dlyCnt = 0 ∧
    0 < (delaying q .ready 1#3 1 true).dlyCnt ∧ (delaying q .ready 1#3 1 true).pins.tick = true ∧
    0 < (delaying q .ready 1#3 1 false).dlyCnt ∧ (delaying q .ready 1#3 1 false).pins.tick = false := by decide

/-- FailedReadsStoreNothing: each read state, by `IoError` and by a length beside the right one. -/
theorem witness_FailedReadsStoreNothing :
    (∀ q ∈ [Seq.initStatus, .measPoll], ∀ p ∈ [failing, answering 0#4 0#56, answering 2#4 0#56],
      (outstanding q .ready 1#3 p).seq = q ∧ p.reset = false ∧ p.rspValid = true ∧
        (p.rspErr = true ∨ p.rspLen.toNat ≠ 1)) ∧
    (∀ p ∈ [failing, answering 6#4 0#56, answering 8#4 0#56],
      (outstanding .measFrame .measuring 4#3 p).trPending = true ∧ p.reset = false ∧ p.rspValid = true ∧
        (p.rspErr = true ∨ p.rspLen.toNat ≠ 7)) := by decide

/-- UnselectedRequestsDoNothing: `IDLE` is none of the states named. -/
theorem witness_UnselectedRequestsDoNothing : ∀ q ∈ [Seq.initOpen, .rstWrite, .measTrigger, .initWrite, .measPoll,
    .initStatus, .measFrame], (idleIn .ready).seq ≠ q := by decide

/-- StepRunsDecoded: a word presented, and none presented. -/
theorem witness_StepRunsDecoded :
    ((presenting 1#3 .uninitialized).pins.reset = false ∧
      fetchWord (presenting 1#3 .uninitialized) = some ⟨.hostop, [0x01#8]⟩ ∧ decode .hostop [0x01#8] = .ok .opInit) ∧
    ((idleIn .ready).pins.reset = false ∧ fetchWord (idleIn .ready) = none) := by decide

theorem witness_ResetGivesTableValues :
    ({ idleIn .ready with pins := { quietPins with reset := true } } : State).pins.reset = true := by decide

theorem witness_IdleDoesNothing : (idleIn .ready).seq = .idle ∧ (idleIn .ready).pins.reset = false ∧
    (idleIn .ready).pins.opValid = false := by decide

theorem witness_LateAnswersIgnored : (idleIn .ready).trPending = false := by decide

/-- The state after a hardware reset has the invariant, for the witnesses below. -/
theorem inv_reset : StateInv State.reset where
  spec := {
    idle_not_pending := by decide
    measuring_iff := by decide
    handle_open := by decide
    init_uninitialized := by decide
    rst_ready := by decide
    scaled := by decide
    failed_status := by decide
    poll_bounded := by decide }
  pending_transport := by decide
  init_handle := by decide
  poll_room := by decide
  op_init := by decide
  op_meas := by decide
  op_rst := by decide

/-- A state in the middle of a measurement, its request outstanding, has the invariant. -/
theorem inv_polling : StateInv (outstanding .measPoll .measuring 4#3 (answering 1#4 0x80#56)) where
  spec := {
    idle_not_pending := by decide
    measuring_iff := by decide
    handle_open := by decide
    init_uninitialized := by decide
    rst_ready := by decide
    scaled := by decide
    failed_status := by decide
    poll_bounded := by decide }
  pending_transport := by decide
  init_handle := by decide
  poll_room := by decide
  op_init := by decide
  op_meas := by decide
  op_rst := by decide

/-- A failed session has the invariant. -/
theorem inv_failed : StateInv { presenting 1#3 .failed with rspStatus := .ioError } where
  spec := {
    idle_not_pending := by decide
    measuring_iff := by decide
    handle_open := by decide
    init_uninitialized := by decide
    rst_ready := by decide
    scaled := by decide
    failed_status := by decide
    poll_bounded := by decide }
  pending_transport := by decide
  init_handle := by decide
  poll_room := by decide
  op_init := by decide
  op_meas := by decide
  op_rst := by decide

theorem witness_StepKeepsInvariant : ∃ s t : State, StateInv s ∧ step s = .next t := ⟨_, _, inv_polling, step_eq _⟩

theorem witness_SpecInvariantsAfterEveryStep :
    ∃ (s t : State) (n : Nat), 0 < n ∧ Host.Core.run Sys2Proof.core n (hardwareReset s) = .next t :=
  ⟨idleIn .failed, { State.reset with env := [] }, 1, by decide, rfl⟩

theorem witness_StepKeepsResultsTrue : ∃ s t : State, StateInv s ∧ ResultsDescribeFrame s ∧ step s = .next t :=
  ⟨_, _, inv_polling,
    { crc := by decide, temp := by decide, hum := by decide, no_temp := by decide, no_hum := by decide,
      none_yet := by decide }, step_eq _⟩

/-- StepKeepsTraceRules: before an open; and the last status read of a poll of two, one busy byte seen. -/
theorem witness_StepKeepsTraceRules :
    (∃ s t : State, TraceFollowsRules s ∧ step s = .next t) ∧
    (∃ s t : State, TraceFollowsRules s ∧ step s = .next t ∧ s.seq = .measPoll ∧ s.cfgPollLimit = 2#16 ∧
      t.trace = s.trace ++ [.rsp .read (.okBytes 1#4 [0x80#8]), .done 4#3 .timeout]) :=
  ⟨⟨{ inStep .initOpen .uninitialized 1#3 with trace := [.accept 1#3] }, _,
      ⟨.accepted 1#3 .fresh, by decide, rfl, rfl⟩, step_eq _⟩,
   ⟨{ outstanding .measPoll .measuring 4#3 (answering 1#4 0x80#56) with
        handle := 0#Config.handleW, cfgPollLimit := 2#16, pollCnt := 1#16
        trace := initTrace ++ [.accept 4#3, .write 0#Config.handleW [0xAC#8, 0x33#8, 0x00#8], .rsp .write .okWrite, .delay 80,
          .read 0#Config.handleW 1, .rsp .read (.okBytes 1#4 [0x80#8]), .read 0#Config.handleW 1] }, _,
      ⟨.polling 4#3 0#Config.handleW 1, by decide, 1, rfl, by unfold PollCountFits; decide⟩, step_eq _, rfl, rfl, rfl⟩⟩

theorem witness_OneRequestOutstanding : ∃ s t : State, StateInv s ∧ step s = .next t ∧
    requestCount s.trace = answerCount s.trace + (if s.trPending then 1 else 0) :=
  ⟨State.reset, _, inv_reset, step_eq _, by decide⟩

/-- SessionDiagram: a reset; a step from a state with the invariant; a step that ends in a completion. -/
theorem witness_SessionDiagram :
    (∃ s t : State, s.pins.reset = true ∧ step s = .next t) ∧
    (∃ s t : State, StateInv s ∧ s.pins.reset = false ∧ step s = .next t ∧
      ∃ c st pre, t.trace = s.trace ++ pre ++ [.done c st]) :=
  ⟨⟨{ idleIn .ready with pins := { quietPins with reset := true } }, _, by decide, step_eq _⟩,
   ⟨{ presenting 1#3 .failed with rspStatus := .ioError }, _, inv_failed, by decide, step_eq _,
     1#3, .invalid, [.accept 1#3], by decide⟩⟩

/-- FailedIsTerminal, with an operation presented. -/
theorem witness_FailedIsTerminal : ∃ s t : State, StateInv s ∧ s.sessState = .failed ∧ s.pins.reset = false ∧
    step s = .next t ∧ s.pins.opValid = true :=
  ⟨{ presenting 1#3 .failed with rspStatus := .ioError }, _, inv_failed, by decide, by decide, step_eq _, by decide⟩

/-- IoErrorCauses: a step that fails and one that does not. -/
theorem witness_IoErrorCauses :
    (∃ s t : State, s.pins.reset = false ∧ s.sessState ≠ .failed ∧ step s = .next t ∧ t.sessState = .failed) ∧
    (∃ s t : State, s.pins.reset = false ∧ s.sessState ≠ .failed ∧ step s = .next t ∧ t.sessState ≠ .failed) :=
  ⟨⟨outstanding .measFrame .measuring 4#3 (answering 8#4 0#56), _, by decide, by decide, step_eq _, by decide⟩,
   ⟨idleIn .ready, _, by decide, by decide, step_eq _, by decide⟩⟩

/-- TimeoutCause: a step that times out. -/
theorem witness_TimeoutCause : ∃ s t : State, s.pins.reset = false ∧ step s = .next t ∧
    ∃ pre, t.trace = s.trace ++ pre ++ [.done s.curOp .timeout] :=
  ⟨{ outstanding .measPoll .measuring 4#3 (answering 1#4 0x80#56) with cfgPollLimit := 1#16 }, _, by decide, step_eq _,
    [.rsp .read (.okBytes 1#4 [0x80#8])], by decide⟩

/-- RaisedOutcomesEndTheOperation: a failing answer, and the timeout above. -/
theorem witness_RaisedOutcomesEndTheOperation :
    (∃ s t : State, s.pins.reset = false ∧ s.sessState ≠ .failed ∧ step s = .next t ∧ t.sessState = .failed) ∧
    (∃ s t : State, s.pins.reset = false ∧ step s = .next t ∧ ∃ pre, t.trace = s.trace ++ pre ++ [.done s.curOp .timeout]) :=
  ⟨⟨outstanding .measPoll .measuring 4#3 failing, _, by decide, by decide, step_eq _, by decide⟩, witness_TimeoutCause⟩

/-- A measurement whose read fails, with the invariants. -/
theorem witness_FailedMeasurementLeavesNoResult : ∃ (s t : State) (c : OpCode) (st : Status) (pre : List Event),
    StateInv s ∧ ResultsDescribeFrame s ∧ s.pins.reset = false ∧ step s = .next t ∧ isGet c = true ∧
    (st = .ioError ∨ st = .timeout) ∧ t.trace = s.trace ++ pre ++ [.done c st] :=
  ⟨outstanding .measPoll .measuring 4#3 failing, _, 4#3, .ioError, [.rsp .read .ioError],
    { spec := {
        idle_not_pending := by decide
        measuring_iff := by decide
        handle_open := by decide
        init_uninitialized := by decide
        rst_ready := by decide
        scaled := by decide
        failed_status := by decide
        poll_bounded := by decide }
      pending_transport := by decide
      init_handle := by decide
      poll_room := by decide
      op_init := by decide
      op_meas := by decide
      op_rst := by decide },
    { crc := by decide, temp := by decide, hum := by decide, no_temp := by decide, no_hum := by decide,
      none_yet := by decide },
    by decide, step_eq _, by decide, by decide, by decide⟩

/-- FrameBufferWriters, each clause: a good frame read; a good status read; a frame read one byte short. -/
theorem witness_FrameBufferWriters :
    (∃ s t : State, s.pins.reset = false ∧ step s = .next t ∧ s.trPending = true ∧ s.pins.rspValid = true ∧
      s.seq = .measFrame ∧ s.pins.rspErr = false ∧ s.pins.rspLen = 7#4) ∧
    (∃ s t : State, s.pins.reset = false ∧ step s = .next t ∧ s.trPending = true ∧ s.pins.rspValid = true ∧
      (s.seq = .measPoll ∨ s.seq = .initStatus) ∧ s.pins.rspErr = false ∧ s.pins.rspLen = 1#4) ∧
    (∃ s t : State, s.pins.reset = false ∧ step s = .next t ∧
      ¬ (s.trPending = true ∧ s.pins.rspValid = true ∧ s.pins.rspErr = false ∧
        ((s.seq = .measFrame ∧ s.pins.rspLen = 7#4) ∨
         ((s.seq = .measPoll ∨ s.seq = .initStatus) ∧ s.pins.rspLen = 1#4)))) :=
  ⟨⟨outstanding .measFrame .measuring 4#3 (answering 7#4 0#56), _, by decide, step_eq _, by decide⟩,
   ⟨outstanding .initStatus .uninitialized 1#3 (answering 1#4 0#56), _, by decide, step_eq _, by decide⟩,
   ⟨outstanding .measFrame .measuring 4#3 (answering 6#4 0#56), _, by decide, step_eq _, by decide⟩⟩

/-- StrapsAndHandleStay: a step, of a state whose open is answered. -/
theorem witness_StrapsAndHandleStay : ∃ s t : State, step s = .next t ∧ s.pins.reset = false :=
  ⟨outstanding .initOpen .uninitialized 1#3 (answering 0#4 0#56), _, step_eq _, by decide⟩

/-- SoftResetLeavesResults: each of the three kinds of step. -/
theorem witness_SoftResetLeavesResults :
    (∃ s t : State, s.pins.reset = false ∧ step s = .next t ∧ s.seq = .rstWrite) ∧
    (∃ s t : State, s.pins.reset = false ∧ step s = .next t ∧ s.seq = .rstDelay) ∧
    (∃ s t : State, s.pins.reset = false ∧ step s = .next t ∧ s.seq = .idle ∧ s.pins.opValid = true ∧
      s.pins.opCode = 5#3) :=
  ⟨⟨outstanding .rstWrite .ready 5#3 failing, _, by decide, step_eq _, by decide⟩,
   ⟨delaying .rstDelay .ready 5#3 0 false, _, by decide, step_eq _, by decide⟩,
   ⟨presenting 5#3 .ready, _, by decide, step_eq _, by decide, by decide, by decide⟩⟩

/-- HostRegisterFields: the first number that is not assigned. -/
theorem witness_HostRegisterFields : ∃ n : Nat, 10 ≤ n := ⟨10, by decide⟩

/-- UnansweredCallIsStuck: three steps without an answer. -/
theorem witness_UnansweredCallIsStuck : ∃ (n : Nat) (s : State), usesTransport s.seq = true ∧ s.trPending = true ∧
    n ≤ s.env.length ∧ 0 < n ∧ (∀ p ∈ s.pins :: s.env, p.reset = false ∧ p.rspValid = false) :=
  ⟨3, { outstanding .measFrame .measuring 4#3 quietPins with env := [tickPins, quietPins, tickPins] }, by decide⟩

/-- DelaysAreNotShortened: two ticks of two. -/
theorem witness_DelaysAreNotShortened : ∃ (n : Nat) (s t : State),
    (s.seq = .initDelay ∨ s.seq = .measSettle ∨ s.seq = .rstDelay) ∧ n ≤ s.dlyCnt ∧ n ≤ s.env.length ∧
    (∀ p ∈ s.pins :: s.env, p.reset = false) ∧ Host.Core.run Sys2Proof.core n s = .next t ∧ 0 < n :=
  ⟨2, { delaying .measSettle .measuring 4#3 2 true with env := [tickPins, tickPins] },
    { inStep .measSettle .measuring 4#3 with dlyCnt := 0, pins := tickPins, env := [] },
    by decide, by decide, by decide, by decide, rfl, by decide⟩

/-- UnboundedPollGoesOn: two busy rounds. -/
theorem witness_UnboundedPollGoesOn : ∃ (rounds : List (Pins × Pins)) (s : State) (p : Pins) (rest : List Pins),
    s.seq = .measPoll ∧ s.trPending = false ∧ s.cfgPollLimit = 0#16 ∧ (∀ r ∈ rounds, busyRound r) ∧
    s.pins :: s.env = rounds.flatMap (fun r => [r.1, r.2]) ++ p :: rest ∧ rounds.length = 2 :=
  ⟨[(quietPins, answering 1#4 0x80#56), (quietPins, answering 1#4 0xFF#56)],
    { inStep .measPoll .measuring 4#3 with
      env := [answering 1#4 0x80#56, quietPins, answering 1#4 0xFF#56, quietPins] }, quietPins, [],
    by decide, by decide, by decide, by unfold busyRound; decide, rfl, by decide⟩

/-- CalibratedInitWritesNothing: the vector S4 with status byte 0x08. -/
theorem witness_CalibratedInitWritesNothing : ∃ (s : State) (p0 p1 p2 p3 p4 p5 : Pins) (rest : List Pins),
    s.seq = .idle ∧ s.trPending = false ∧ s.sessState = .uninitialized ∧ s.pins = p0 ∧
    s.env = p1 :: p2 :: p3 :: p4 :: p5 :: rest ∧ (∀ p ∈ [p0, p1, p2, p3, p4], p.reset = false) ∧
    p0.opValid = true ∧ p0.opCode = 1#3 ∧ p2.rspValid = true ∧ p2.rspErr = false ∧
    p4.rspValid = true ∧ p4.rspErr = false ∧ p4.rspLen = 1#4 ∧ (answerByte p4 0).getLsbD 3 = true :=
  ⟨{ presenting 1#3 .uninitialized with
      env := [quietPins, answering 0#4 0#56, quietPins, answering 1#4 0x08#56, quietPins] },
    { quietPins with opValid := true, opCode := 1#3 }, quietPins, answering 0#4 0#56, quietPins, answering 1#4 0x08#56,
    quietPins, [], by decide, by decide, by decide, rfl, rfl, by decide⟩

/-- MeasurementDelivers: an 80-tick delay, one busy round under the bound 2, a clear status byte, the frame of S7. -/
theorem witness_MeasurementDelivers : ∃ (s : State) (c : OpCode)
    (pOp pIssue pWrite pExit pRead pStatus pRead7 pFrame pNext : Pins) (ticks : List Pins) (rounds : List (Pins × Pins))
    (rest : List Pins),
    s.seq = .idle ∧ s.trPending = false ∧ s.sessState = .ready ∧ isGet c = true ∧
    s.pins :: s.env = [pOp, pIssue, pWrite] ++ ticks ++ [pExit] ++ rounds.flatMap (fun r => [r.1, r.2]) ++
      [pRead, pStatus, pRead7, pFrame] ++ pNext :: rest ∧
    (∀ p ∈ [pOp, pIssue, pWrite, pExit, pRead, pStatus, pRead7, pFrame], p.reset = false) ∧
    (∀ p ∈ ticks, p.reset = false ∧ p.tick = true) ∧ ticks.length = 80 * s.ticksPerMs.val ∧
    (∀ r ∈ rounds, busyRound r) ∧ (s.cfgPollLimit = 0#16 ∨ rounds.length < s.cfgPollLimit.toNat) ∧
    pOp.opValid = true ∧ pOp.opCode = c ∧ pWrite.rspValid = true ∧ pWrite.rspErr = false ∧
    pStatus.rspValid = true ∧ pStatus.rspErr = false ∧ pStatus.rspLen = 1#4 ∧
    (answerByte pStatus 0).getLsbD 7 = false ∧
    pFrame.rspValid = true ∧ pFrame.rspErr = false ∧ pFrame.rspLen = 7#4 ∧ rounds.length = 1 :=
  ⟨{ presenting 4#3 .ready with
      cfgPollLimit := 2#16
      env := [quietPins, answering 0#4 0#56] ++ List.replicate 80 tickPins ++ [quietPins] ++
        [quietPins, answering 1#4 0x80#56] ++
        [quietPins, answering 1#4 0x08#56, quietPins, answering 7#4 0xD6000080008008#56, quietPins] },
    4#3, { quietPins with opValid := true, opCode := 4#3 }, quietPins, answering 0#4 0#56, quietPins, quietPins,
    answering 1#4 0x08#56, quietPins, answering 7#4 0xD6000080008008#56, quietPins, List.replicate 80 tickPins,
    [(quietPins, answering 1#4 0x80#56)], [], by decide, by decide, by decide, by decide, rfl, by decide, by decide,
    by decide, by unfold busyRound; decide, by decide, by decide, by decide, by decide, by decide, by decide, by decide,
    by decide, by decide, by decide, by decide, by decide, by decide⟩

end Sys2Proof.Tests
end

section
/-!
What a step and a run keep: an invariant is proved of a hardware reset and of the moves, once.
-/

namespace Sys2Proof.Machine

/-- Taking the next inputs changes only the input levels and where they come from. -/
theorem sampleInputs_eq (s : State) :
    ∃ p e n, sampleInputs s = { s with pins := p, env := e, envCount := n } := by
  cases h : s.env with
  | nil => exact ⟨_, s.env, _, sampleInputs_nil s h⟩
  | cons p rest => exact ⟨p, rest, s.envCount, sampleInputs_cons s p rest h⟩

/-- A property of states that a hardware reset establishes, a move keeps and the inputs do not touch is kept by every
step. -/
theorem step_keeps {P : State → Prop} (hreset : ∀ s, P (hardwareReset s)) (hsample : ∀ s, P s → P (sampleInputs s))
    {s t : State} (hmove : ∀ u, Move s u → P u) (h : step s = .next t) : P t := by
  obtain ⟨-, rfl⟩ | ⟨-, u, hu, rfl⟩ := step_moves h
  · exact hsample _ (hreset s)
  · exact hsample _ (hmove u hu)

/-- A run of one step more is that step and then the run. -/
theorem run_succ (n : Nat) (s : State) :
    Host.Core.run Sys2Proof.core (n + 1) s = Host.Core.run Sys2Proof.core n (sampleInputs (coreStep s)) := by
  have h : Sys2Proof.core.step s = .next (sampleInputs (coreStep s)) := step_eq s
  simp only [Host.Core.run, h]

/-- What every step keeps holds after every run. -/
theorem run_keeps {P : State → Prop} (hstep : ∀ s t, P s → step s = .next t → P t) (n : Nat) {s t : State} (hs : P s)
    (h : Host.Core.run Sys2Proof.core n s = .next t) : P t := by
  induction n generalizing s with
  | zero =>
    injection h with h
    exact h ▸ hs
  | succ n ih => exact ih (hstep _ _ hs (step_eq s)) (run_succ n s ▸ h)

end Sys2Proof.Machine
end

section
/-!
The state invariant of 10_state.md R53: what each phase of an operation needs for it, and that every move keeps it.
-/

namespace Sys2Proof.Machine

/-! ### The scalers do not wrap (41_frame_decoder.md R137, R138) -/

theorem scaleTemp_toInt (raw : Raw20) : (scaleTemp raw).toInt = (raw.toNat : Int) * 200 - 52428800 := by
  have hlt := raw.isLt
  have hn : (scaleTemp raw).toNat = (2 ^ 29 - 52428800 + raw.toNat * 200) % 2 ^ 29 := by
    simp [scaleTemp, BitVec.toNat_sub]
  rw [BitVec.toInt_eq_toNat_cond, hn]
  split <;> omega

theorem scaleHum_toNat (raw : Raw20) : (scaleHum raw).toNat = raw.toNat * 100 := by
  have := raw.isLt
  simp [scaleHum]
  omega

/-- A measurement's results satisfy the scaling relations (41_frame_decoder.md R137, R138). -/
theorem scaledResults_storeResults {s : State} (h : ScaledResults s) : ScaledResults (storeResults s) := by
  constructor
  · by_cases hw : wantsTemp s.curOp = true
    · simp [hw, decodeTemperature, scaleTemp_toInt]
    · simpa [hw] using h.1
  · by_cases hw : wantsHum s.curOp = true
    · simp [hw, decodeHumidity, scaleHum_toNat]
    · simpa [hw] using h.2

/-! ### The poll counter (10_state.md R40, 42_measurement_fsm.md R154) -/

/-- A count below its bound does not wrap at the next read. -/
theorem pollCnt_succ_toNat {cnt lim : PollCount} (h : cnt.toNat < lim.toNat) : (cnt + 1#16).toNat = cnt.toNat + 1 := by
  have := lim.isLt
  rw [BitVec.toNat_add, BitVec.toNat_one (by decide)]
  omega

/-- Counting a read of a poll that has room stays within the bound. -/
theorem countPoll_le {s : State} (hb : s.pollCnt.toNat ≤ s.cfgPollLimit.toNat)
    (hroom : s.cfgPollLimit ≠ 0#16 → s.pollCnt.toNat < s.cfgPollLimit.toNat) :
    (countPoll s).pollCnt.toNat ≤ s.cfgPollLimit.toNat := by
  by_cases h0 : s.cfgPollLimit = 0#16
  · simpa [h0] using hb
  · have hlt := hroom h0
    simpa [h0, pollCnt_succ_toNat hlt] using hlt

/-- Counting a read that does not reach the bound leaves room for another. -/
theorem countPoll_lt {s : State} (hroom : s.pollCnt.toNat < s.cfgPollLimit.toNat) (h0 : s.cfgPollLimit ≠ 0#16)
    (hne : s.pollCnt + 1#16 ≠ s.cfgPollLimit) : (countPoll s).pollCnt.toNat < s.cfgPollLimit.toNat := by
  have hne' := mt BitVec.eq_of_toNat_eq hne
  rw [pollCnt_succ_toNat hroom] at hne'
  simp [h0, pollCnt_succ_toNat hroom]
  omega

/-! ### The state invariant, phase by phase -/

/-- Reading the inputs of the next step keeps the invariant: it does not speak of them. -/
theorem stateInv_sampleInputs {s : State} (h : StateInv s) : StateInv (sampleInputs s) := by
  obtain ⟨p, e, n, heq⟩ := sampleInputs_eq s
  rw [heq]
  exact { h with spec := { h.spec with } }

/-- An idle state needs a session that is not measuring, with its handle. -/
theorem stateInv_of_idle {s : State} (hq : s.seq = .idle) (hp : s.trPending = false) (hm : s.sessState ≠ .measuring)
    (hh : s.sessState = .ready → s.handleValid = true) (hr : ScaledResults s)
    (hf : s.sessState = .failed → s.rspStatus = .ioError ∨ s.rspStatus = .invalid)
    (hb : s.pollCnt.toNat ≤ s.cfgPollLimit.toNat) : StateInv s where
  spec :=
    { idle_not_pending := fun _ => hp
      measuring_iff := by simp [hq, isMeas, hm]
      handle_open := fun h => hh (h.resolve_right hm)
      init_uninitialized := by simp [hq, isInit]
      rst_ready := by simp [hq, isRst]
      scaled := hr
      failed_status := hf
      poll_bounded := hb }
  pending_transport := by simp [hp]
  init_handle := by simp [hq]
  poll_room := by simp [hq]
  op_init := by simp [hq, isInit]
  op_meas := by simp [hq, isMeas]
  op_rst := by simp [hq, isRst]

theorem not_meas_rst_of_isInit {q : Seq} (h : isInit q = true) : isMeas q = false ∧ isRst q = false := by
  cases q <;> simp [isInit, isMeas, isRst] at h ⊢

theorem not_init_rst_of_isMeas {q : Seq} (h : isMeas q = true) : isInit q = false ∧ isRst q = false := by
  cases q <;> simp [isInit, isMeas, isRst] at h ⊢

theorem not_init_meas_of_isRst {q : Seq} (h : isRst q = true) : isInit q = false ∧ isMeas q = false := by
  cases q <;> simp [isInit, isMeas, isRst] at h ⊢

/-- A state of `init` is uninitialized, and past the open it has its handle. -/
theorem stateInv_of_init {s : State} (hq : isInit s.seq = true) (hp : s.trPending = true → usesTransport s.seq = true)
    (hs : s.sessState = .uninitialized) (hc : s.curOp = codeInit) (hh : s.seq = .initOpen ∨ s.handleValid = true)
    (hr : ScaledResults s) (hb : s.pollCnt.toNat ≤ s.cfgPollLimit.toNat) : StateInv s where
  spec :=
    { idle_not_pending := fun h => by simp [h, isInit] at hq
      measuring_iff := by simp [not_meas_rst_of_isInit hq, hs]
      handle_open := by simp [hs]
      init_uninitialized := fun _ => hs
      rst_ready := by simp [not_meas_rst_of_isInit hq]
      scaled := hr
      failed_status := by simp [hs]
      poll_bounded := hb }
  pending_transport := hp
  init_handle := fun h => hh.resolve_left (by rcases h with h | h | h <;> simp [h])
  poll_room := fun h => by simp [h, isInit] at hq
  op_init := fun _ => hc
  op_meas := by simp [not_meas_rst_of_isInit hq]
  op_rst := by simp [not_meas_rst_of_isInit hq]

/-- A state of a measurement is `Measuring`, with its handle, and a poll has room for another read. -/
theorem stateInv_of_meas {s : State} (hq : isMeas s.seq = true) (hp : s.trPending = true → usesTransport s.seq = true)
    (hs : s.sessState = .measuring)
    (hc : s.curOp = codeGetTemperature ∨ s.curOp = codeGetHumidity ∨ s.curOp = codeGetAll)
    (hh : s.handleValid = true) (hr : ScaledResults s) (hb : s.pollCnt.toNat ≤ s.cfgPollLimit.toNat)
    (hroom : s.seq = .measPoll → s.cfgPollLimit ≠ 0#16 → s.pollCnt.toNat < s.cfgPollLimit.toNat) : StateInv s where
  spec :=
    { idle_not_pending := fun h => by simp [h, isMeas] at hq
      measuring_iff := by simp [hs, hq]
      handle_open := fun _ => hh
      init_uninitialized := by simp [not_init_rst_of_isMeas hq]
      rst_ready := by simp [not_init_rst_of_isMeas hq]
      scaled := hr
      failed_status := by simp [hs]
      poll_bounded := hb }
  pending_transport := hp
  init_handle := fun _ => hh
  poll_room := hroom
  op_init := by simp [not_init_rst_of_isMeas hq]
  op_meas := fun _ => hc
  op_rst := by simp [not_init_rst_of_isMeas hq]

/-- A state of `soft_reset` is `Ready`, with its handle. -/
theorem stateInv_of_rst {s : State} (hq : isRst s.seq = true) (hp : s.trPending = true → usesTransport s.seq = true)
    (hs : s.sessState = .ready) (hc : s.curOp = codeSoftReset) (hh : s.handleValid = true) (hr : ScaledResults s)
    (hb : s.pollCnt.toNat ≤ s.cfgPollLimit.toNat) : StateInv s where
  spec :=
    { idle_not_pending := fun h => by simp [h, isRst] at hq
      measuring_iff := by simp [not_init_meas_of_isRst hq, hs]
      handle_open := fun _ => hh
      init_uninitialized := by simp [not_init_meas_of_isRst hq]
      rst_ready := fun _ => hs
      scaled := hr
      failed_status := by simp [hs]
      poll_bounded := hb }
  pending_transport := hp
  init_handle := fun _ => hh
  poll_room := fun h => by simp [h, isRst] at hq
  op_init := by simp [not_init_meas_of_isRst hq]
  op_meas := by simp [not_init_meas_of_isRst hq]
  op_rst := fun _ => hc

theorem stateInv_hardwareReset (s : State) : StateInv (hardwareReset s) :=
  stateInv_of_idle rfl rfl (by simp) (by simp) (by simp [ScaledResults]) (by simp) (by simp)

theorem StateInv.idle_not_measuring {s : State} (h : StateInv s) (hq : s.seq = .idle) : s.sessState ≠ .measuring := by
  simp [h.spec.measuring_iff, hq, isMeas]

theorem StateInv.meas_handle {s : State} (h : StateInv s) (hq : isMeas s.seq = true) : s.handleValid = true :=
  h.spec.handle_open (.inr (h.spec.measuring_iff.2 hq))

/-- The request of a state is a transport state's. -/
theorem usesTransport_of_seqRequest {s : State} {r : TrReq} (hr : seqRequest s = some r) :
    usesTransport s.seq = true := by
  cases hq : s.seq <;> simp [seqRequest, hq, usesTransport] at hr ⊢

/-- Every move keeps the state invariant. -/
theorem Move.stateInv {s u : State} (hm : Move s u) (h : StateInv s) : StateInv u := by
  have hr := h.spec.scaled
  have hb := h.spec.poll_bounded
  cases hm with
  | idleWait | wait | delayWait => exact h
  | tick => exact { h with spec := { h.spec with } }
  | refused hq =>
    exact stateInv_of_idle rfl rfl (h.idle_not_measuring hq) (fun hs => h.spec.handle_open (.inl hs)) hr
      (fun _ => .inr rfl) hb
  | initAccepted _ _ _ hs => exact stateInv_of_init rfl nofun hs rfl (.inl rfl) hr hb
  | measureAccepted _ _ hc hs =>
    exact stateInv_of_meas rfl nofun rfl (isGet_iff.1 hc) (h.spec.handle_open (.inl hs)) ⟨nofun, nofun⟩ hb nofun
  | resetAccepted _ _ _ hs => exact stateInv_of_rst rfl nofun hs rfl (h.spec.handle_open (.inl hs)) hr hb
  | issue r hq =>
    have hu := usesTransport_of_seqRequest hq
    exact { h with
      spec := { h.spec with idle_not_pending := fun hi => by simp [show s.seq = .idle from hi, usesTransport] at hu }
      pending_transport := fun _ => hu }
  | ioError => exact stateInv_of_idle rfl rfl nofun nofun hr (fun _ => .inl rfl) hb
  | opened hq =>
    exact stateInv_of_init rfl nofun (h.spec.init_uninitialized (by simp [hq, isInit])) (h.op_init (by simp [hq, isInit]))
      (.inr rfl) hr hb
  | calibrated hq => exact stateInv_of_idle rfl rfl nofun (fun _ => h.init_handle (.inl hq)) hr nofun hb
  | uncalibrated hq =>
    exact stateInv_of_init rfl nofun (h.spec.init_uninitialized (by simp [hq, isInit])) (h.op_init (by simp [hq, isInit]))
      (.inr (h.init_handle (.inl hq))) hr hb
  | delayStarted q ms hq =>
    obtain ⟨hq, rfl, -⟩ | ⟨hq, rfl, -⟩ | ⟨hq, rfl, -⟩ := hq
    · exact stateInv_of_init rfl nofun (h.spec.init_uninitialized (by simp [hq, isInit]))
        (h.op_init (by simp [hq, isInit])) (.inr (h.init_handle (.inr (.inl hq)))) hr hb
    · have hi : isMeas s.seq = true := by simp [hq, isMeas]
      exact stateInv_of_meas rfl nofun (h.spec.measuring_iff.2 hi) (h.op_meas hi) (h.meas_handle hi) hr hb nofun
    · have hi : isRst s.seq = true := by simp [hq, isRst]
      have hs := h.spec.rst_ready hi
      exact stateInv_of_rst rfl nofun hs (h.op_rst hi) (h.spec.handle_open (.inl hs)) hr hb
  | settleExpired hq =>
    have hi : isMeas s.seq = true := by simp [hq, isMeas]
    exact stateInv_of_meas rfl nofun (h.spec.measuring_iff.2 hi) (h.op_meas hi) (h.meas_handle hi) hr (by simp)
      (fun _ h0 => by simpa [Nat.pos_iff_ne_zero, BitVec.toNat_eq] using h0)
  | pollClear hq =>
    have hi : isMeas s.seq = true := by simp [hq, isMeas]
    exact stateInv_of_meas rfl nofun (h.spec.measuring_iff.2 hi) (h.op_meas hi) (h.meas_handle hi) hr
      (countPoll_le hb (h.poll_room hq)) nofun
  | pollTimeout hq _ _ _ _ _ _ hc =>
    exact stateInv_of_idle rfl rfl nofun (fun _ => h.meas_handle (by simp [hq, isMeas])) hr nofun (by simp [hc])
  | pollBusy hq _ _ _ _ _ hc =>
    have hi : isMeas s.seq = true := by simp [hq, isMeas]
    exact stateInv_of_meas rfl nofun (h.spec.measuring_iff.2 hi) (h.op_meas hi) (h.meas_handle hi) hr
      (countPoll_le hb (h.poll_room hq))
      (fun _ h0 => countPoll_lt (h.poll_room hq h0) h0 (hc.resolve_left h0))
  | frameRead hq =>
    exact stateInv_of_idle rfl rfl nofun (fun _ => h.meas_handle (by simp [hq, isMeas]))
      (scaledResults_storeResults (s := { s with frame := answerFrame s.pins }) hr) nofun hb
  | initExpired hq => exact stateInv_of_idle rfl rfl nofun (fun _ => h.init_handle (.inr (.inr hq))) hr nofun hb
  | resetExpired hq =>
    have hs := h.spec.rst_ready (by simp [hq, isRst])
    exact stateInv_of_idle rfl rfl (by simp [hs]) (fun _ => h.spec.handle_open (.inl hs)) hr (by simp [hs]) hb

/-- Settles O38: a reset state has the invariant, every move keeps it, and the inputs do not touch it. -/
theorem stepKeepsInvariant : Obligations.StepKeepsInvariant := fun _ _ h =>
  step_keeps stateInv_hardwareReset (fun _ => stateInv_sampleInputs) fun _ hm => hm.stateInv h

/-- Settles O39, by induction on the number of steps, with the state invariant for the induction hypothesis. -/
theorem specInvariantsAfterEveryStep : Obligations.SpecInvariantsAfterEveryStep := fun s _ n h =>
  (run_keeps stepKeepsInvariant n (stateInv_hardwareReset s) h).spec

end Sys2Proof.Machine
end

section
/-!
The result registers describe the frame buffer (10_state.md R27 to R29, R46 to R49).
-/

namespace Sys2Proof.Machine

theorem resultsDescribeFrame_sampleInputs {s : State} (h : ResultsDescribeFrame s) :
    ResultsDescribeFrame (sampleInputs s) := by
  obtain ⟨p, e, n, heq⟩ := sampleInputs_eq s
  rw [heq]
  exact { h with }

/-- With no flag set there is nothing to describe: the registers must be 0. -/
theorem resultsDescribeFrame_of_clear {s : State} (hflags : s.crcOk = false ∧ s.hasTemp = false ∧ s.hasHum = false)
    (ht : s.rawT = 0#20 ∧ s.tempQ20 = 0#29) (hh : s.rawH = 0#20 ∧ s.humQ20 = 0#27) : ResultsDescribeFrame s where
  crc := by simp [hflags]
  temp := by simp [hflags]
  hum := by simp [hflags]
  no_temp := fun _ => ht
  no_hum := fun _ => hh
  none_yet := fun _ => hflags

theorem resultsDescribeFrame_hardwareReset (s : State) : ResultsDescribeFrame (hardwareReset s) :=
  resultsDescribeFrame_of_clear ⟨rfl, rfl, rfl⟩ ⟨rfl, rfl⟩ ⟨rfl, rfl⟩

/-- Before the first measurement and during one, the frame buffer can change without a result that speaks of it. -/
theorem ResultsDescribeFrame.of_none_yet {s u : State} (h : ResultsDescribeFrame s)
    (hs : s.sessState = .uninitialized ∨ s.sessState = .measuring)
    (hflags : u.crcOk = s.crcOk ∧ u.hasTemp = s.hasTemp ∧ u.hasHum = s.hasHum)
    (hregs : u.rawT = s.rawT ∧ u.tempQ20 = s.tempQ20 ∧ u.rawH = s.rawH ∧ u.humQ20 = s.humQ20) :
    ResultsDescribeFrame u := by
  obtain ⟨hc, ht, hh⟩ := h.none_yet hs
  exact resultsDescribeFrame_of_clear (by simp [hflags, hc, ht, hh]) (by simpa [hregs] using h.no_temp ht)
    (by simpa [hregs] using h.no_hum hh)

/-- The completion of a measurement fills the results from the frame just read (42_measurement_fsm.md R157); a field the
operation does not ask for stays 0. -/
theorem resultsDescribeFrame_finishMeasurement {s : State} (hfull : s.frameFull = true) (ht : s.hasTemp = false)
    (hh : s.hasHum = false) (ht0 : s.rawT = 0#20 ∧ s.tempQ20 = 0#29) (hh0 : s.rawH = 0#20 ∧ s.humQ20 = 0#27) :
    ResultsDescribeFrame (finishMeasurement s) where
  crc := by simp [hfull]
  temp := by cases hw : wantsTemp s.curOp <;> simp [hw, hfull, ht]
  hum := by cases hw : wantsHum s.curOp <;> simp [hw, hfull, hh]
  no_temp := by cases hw : wantsTemp s.curOp <;> simp [hw, ht0]
  no_hum := by cases hw : wantsHum s.curOp <;> simp [hw, hh0]
  none_yet := by simp

/-- Every move keeps that the results describe the frame buffer: only a status read and the frame read write it, and both
come while no flag is set. -/
theorem Move.resultsDescribeFrame {s u : State} (hm : Move s u) (hi : StateInv s) (h : ResultsDescribeFrame s) :
    ResultsDescribeFrame u := by
  have hmeas (hq : isMeas s.seq = true) : s.sessState = .measuring := hi.spec.measuring_iff.2 hq
  cases hm with
  | idleWait | wait | delayWait => exact h
  | refused | initAccepted | resetAccepted | issue | opened | delayStarted | tick | settleExpired | resetExpired =>
    exact { h with }
  | ioError | initExpired => exact { h with none_yet := nofun }
  | measureAccepted => exact resultsDescribeFrame_of_clear ⟨rfl, rfl, rfl⟩ ⟨rfl, rfl⟩ ⟨rfl, rfl⟩
  | calibrated hq | uncalibrated hq =>
    exact h.of_none_yet (.inl (hi.spec.init_uninitialized (by simp [hq, isInit]))) ⟨rfl, rfl, rfl⟩ ⟨rfl, rfl, rfl, rfl⟩
  | pollClear hq | pollTimeout hq | pollBusy hq =>
    exact h.of_none_yet (.inr (hmeas (by simp [hq, isMeas]))) ⟨rfl, rfl, rfl⟩ ⟨rfl, rfl, rfl, rfl⟩
  | frameRead hq =>
    obtain ⟨-, ht, hh⟩ := h.none_yet (.inr (hmeas (by simp [hq, isMeas])))
    exact { resultsDescribeFrame_finishMeasurement (s := storeFrame (answerFrame s.pins) s) rfl ht hh (h.no_temp ht)
      (h.no_hum hh) with }

/-- Settles O40: as O38, with the state invariant to say which session state a move starts from. -/
theorem stepKeepsResultsTrue : Obligations.StepKeepsResultsTrue := fun _ _ hi h =>
  step_keeps resultsDescribeFrame_hardwareReset (fun _ => resultsDescribeFrame_sampleInputs) fun _ hm =>
    hm.resultsDescribeFrame hi h

end Sys2Proof.Machine
end

section
/-!
What single moves do: acceptance, the frame buffer's writers, straps and handle.
-/

namespace Sys2Proof.Machine

/-! ### Acceptance -/

/-- Traces that go on with an acceptance each go on with the same one. -/
theorem accept_eq_of_append {tr evs post : List Event} {c c' : OpCode}
    (h : tr ++ .accept c :: evs = tr ++ .accept c' :: post) : c = c' := by
  injection List.append_cancel_left h with hhead
  injection hhead

/-- A move whose first event is an acceptance starts in IDLE and takes the operation presented there
(43_session_ops.md R170). -/
theorem Move.accept_of_trace {s u : State} {c : OpCode} {post : List Event} (hm : Move s u)
    (h : u.trace = s.trace ++ .accept c :: post) : s.seq = .idle ∧ s.pins.opValid = true ∧ s.pins.opCode = c := by
  cases hm with
  | refused hq ho | measureAccepted hq ho => exact ⟨hq, ho, accept_eq_of_append h⟩
  | initAccepted hq ho hc | resetAccepted hq ho hc => exact ⟨hq, ho, hc.trans (accept_eq_of_append h)⟩
  | issue r => cases r <;> simp [reqEvent] at h
  | _ => simp at h

/-- Settles O17: of the moves only the acceptances, in IDLE, record `EvAccept` first. -/
theorem acceptsOnlyWhenReady : Obligations.AcceptsOnlyWhenReady := by
  refine ⟨fun s => ⟨by simp [busyOut], rfl⟩, fun s t c post h htr => ?_⟩
  obtain ⟨-, rfl⟩ | ⟨-, u, hm, rfl⟩ := step_moves h
  · simp at htr
  · obtain ⟨hq, ho, hc⟩ := hm.accept_of_trace (by simpa using htr)
    exact ⟨by simp [opReady, busyOut, hq], ho, hc⟩

/-! ### What writes the frame buffer (10_state.md R22) -/

/-- A 7-byte read is answered well. -/
def goodFrameRead (s : State) : Prop :=
  s.seq = .measFrame ∧ s.trPending = true ∧ s.pins.rspValid = true ∧ s.pins.rspErr = false ∧ s.pins.rspLen = 7#4

/-- A status read is answered well. -/
def goodStatusRead (s : State) : Prop :=
  (s.seq = .measPoll ∨ s.seq = .initStatus) ∧ s.trPending = true ∧ s.pins.rspValid = true ∧ s.pins.rspErr = false ∧
    s.pins.rspLen = 1#4

/-- A failing answer is a good answer to no read. -/
theorem not_goodRead_of_answerFails {s : State} (hf : answerFails s = true) : ¬ goodFrameRead s ∧ ¬ goodStatusRead s := by
  constructor
  · rintro ⟨hq, -, -, he, hl⟩
    simp [answerFails, hq, readOk, he, hl] at hf
  · rintro ⟨hq | hq, -, -, he, hl⟩ <;> simp [answerFails, hq, readOk, he, hl] at hf

/-- Everything a move can do to the frame buffer. -/
theorem Move.frame_cases {s u : State} (hm : Move s u) :
    (goodFrameRead s ∧ u.frame = answerFrame s.pins ∧ u.frameFull = true) ∨
    (goodStatusRead s ∧ u.frame = { s.frame with b0 := answerByte s.pins 0 } ∧ u.frameFull = false) ∨
    ((¬ goodFrameRead s ∧ ¬ goodStatusRead s) ∧ u.frame = s.frame ∧ u.frameFull = s.frameFull) := by
  cases hm with
  | frameRead hq hp hv he hl => exact .inl ⟨⟨hq, hp, hv, he, hl⟩, rfl, rfl⟩
  | calibrated hq hp hv he hl | uncalibrated hq hp hv he hl =>
    exact .inr (.inl ⟨⟨.inr hq, hp, hv, he, hl⟩, rfl, rfl⟩)
  | pollClear hq hp hv he hl | pollTimeout hq hp hv he hl | pollBusy hq hp hv he hl =>
    exact .inr (.inl ⟨⟨.inl hq, hp, hv, he, hl⟩, rfl, rfl⟩)
  | ioError _ _ _ _ hf => exact .inr (.inr ⟨not_goodRead_of_answerFails hf, rfl, rfl⟩)
  | issue _ _ hp => exact .inr (.inr ⟨by simp [goodFrameRead, goodStatusRead, hp], rfl, rfl⟩)
  | wait _ _ hv => exact .inr (.inr ⟨by simp [goodFrameRead, goodStatusRead, hv], rfl, rfl⟩)
  | idleWait hq | refused hq | initAccepted hq | measureAccepted hq | resetAccepted hq | opened hq | initExpired hq
    | settleExpired hq | resetExpired hq =>
    exact .inr (.inr ⟨by simp [goodFrameRead, goodStatusRead, hq], rfl, rfl⟩)
  | tick hq | delayWait hq =>
    exact .inr (.inr ⟨by rcases hq with hq | hq | hq <;> simp [goodFrameRead, goodStatusRead, hq], rfl, rfl⟩)
  | delayStarted _ _ hq =>
    exact .inr (.inr ⟨by rcases hq with ⟨hq, -⟩ | ⟨hq, -⟩ | ⟨hq, -⟩ <;> simp [goodFrameRead, goodStatusRead, hq], rfl, rfl⟩)

theorem not_goodFrameRead_of_goodStatusRead {s : State} (h : goodStatusRead s) : ¬ goodFrameRead s := by
  rintro ⟨hq, -⟩
  simp [goodStatusRead, hq] at h

/-- Register `i` of the frame read holds byte `i` of the answer (20_memory.md R64). -/
theorem frameByte_answerFrame (p : Pins) (i : Fin 7) : frameByte (answerFrame p) i = answerByte p i.val := by
  fin_cases i <;> rfl

/-- A status read leaves the other six registers. -/
theorem frameByte_setStatus_of_ne (f : Frame) (b : Byte) {i : Fin 7} (hi : i ≠ 0) :
    frameByte { f with b0 := b } i = frameByte f i := by
  fin_cases i
  · exact absurd rfl hi
  all_goals rfl

/-- Settles O49: the three ways a move treats the frame buffer exclude each other. -/
theorem frameBufferWriters : Obligations.FrameBufferWriters := by
  intro s t hr h
  obtain ⟨hr', -⟩ | ⟨-, u, hm, rfl⟩ := step_moves h
  · simp [hr] at hr'
  simp only [sampleInputs_frame, sampleInputs_frameFull]
  refine ⟨fun hp hv hq he hl => ?_, fun hp hv hq he hl => ?_, fun hno => ?_⟩
  · have hgood : goodFrameRead s := ⟨hq, hp, hv, he, hl⟩
    obtain ⟨-, hf, hfull⟩ | ⟨hst, -⟩ | ⟨⟨hn, -⟩, -⟩ := hm.frame_cases
    · exact ⟨fun i => by rw [hf, frameByte_answerFrame], hfull⟩
    · exact absurd hgood (not_goodFrameRead_of_goodStatusRead hst)
    · exact absurd hgood hn
  · have hgood : goodStatusRead s := ⟨hq, hp, hv, he, hl⟩
    obtain ⟨hfr, -⟩ | ⟨-, hf, hfull⟩ | ⟨⟨-, hn⟩, -⟩ := hm.frame_cases
    · exact absurd hfr (not_goodFrameRead_of_goodStatusRead hgood)
    · exact ⟨by rw [hf]; rfl, fun i hi => by rw [hf, frameByte_setStatus_of_ne _ _ hi], hfull⟩
    · exact absurd hgood hn
  · obtain ⟨⟨hq, hp, hv, he, hl⟩, -⟩ | ⟨⟨hq, hp, hv, he, hl⟩, -⟩ | ⟨-, hsame⟩ := hm.frame_cases
    · exact absurd ⟨hp, hv, he, .inl ⟨hq, hl⟩⟩ hno
    · exact absurd ⟨hp, hv, he, .inr ⟨hq, hl⟩⟩ hno
    · exact hsame

/-! ### Straps, timer rate and handle -/

/-- No move writes a strap register or the timer's rate. -/
theorem Move.straps {s u : State} (hm : Move s u) :
    sampledStraps u = sampledStraps s ∧ u.ticksPerMs = s.ticksPerMs := by
  cases hm <;> exact ⟨rfl, rfl⟩

/-- Only the good answer to the open writes the handle (10_state.md R38). -/
theorem Move.handle_cases {s u : State} (hm : Move s u) :
    (u.handle = s.handle ∧ u.handleValid = s.handleValid) ∨
    (s.seq = .initOpen ∧ s.trPending = true ∧ s.pins.rspValid = true ∧ s.pins.rspErr = false ∧
      u.handle = s.pins.rspHandle ∧ u.handleValid = true) := by
  cases hm with
  | opened hq hp hv he => exact .inr ⟨hq, hp, hv, he, rfl, rfl⟩
  | _ => exact .inl ⟨rfl, rfl⟩

/-- Settles O50: a hardware reset keeps the rate, and a move keeps rate and straps and opens or keeps the handle. -/
theorem strapsAndHandleStay : Obligations.StrapsAndHandleStay := by
  intro s t h
  obtain ⟨hr, rfl⟩ | ⟨-, u, hm, rfl⟩ := step_moves h
  · exact ⟨by simp, fun hr' => by simp [hr] at hr'⟩
  · obtain ⟨hstraps, hrate⟩ := hm.straps
    simp only [sampledStraps, Straps.mk.injEq] at hstraps
    obtain ⟨hbus, hcrc, hlim, hflags⟩ := hstraps
    exact ⟨by simpa using hrate, fun _ => ⟨by simpa using hbus, by simpa using hcrc, by simpa using hlim,
      by simpa using hflags, by simpa using hm.handle_cases⟩⟩

end Sys2Proof.Machine
end

section
/-!
Hardware reset (10_state.md R54).
-/

namespace Sys2Proof.Machine

/-- Settles O33: the step is a hardware reset, whose registers the inputs of the next step do not touch. -/
theorem resetGivesTableValues : Obligations.ResetGivesTableValues := fun s hr => by
  refine ⟨_, step_reset hr, ?_⟩
  simp

/-- Settles O34: field by field the two states are the same. -/
theorem resetStateIsAfterReset : Obligations.ResetStateIsAfterReset := ⟨fun _ => rfl, by decide, by decide, rfl⟩

/-- After a hardware reset no event is recorded and the observer waits for the first operation. -/
theorem traceFollowsRules_hardwareReset (s : State) : TraceFollowsRules (hardwareReset s) :=
  ⟨.rest .fresh, rfl, .fresh, rfl, rfl⟩

/-- A hardware reset leaves a safe state. -/
theorem safe_hardwareReset (s : State) : Safe (hardwareReset s) :=
  ⟨stateInv_hardwareReset s, resultsDescribeFrame_hardwareReset s, traceFollowsRules_hardwareReset s⟩

/-- `State.reset` is what a hardware reset leaves of itself. -/
theorem hardwareReset_reset : hardwareReset State.reset = State.reset := resetStateIsAfterReset.1 State.reset

/-- Settles O37: `State.reset` is itself a state after a hardware reset. -/
theorem resetIsSafe : Obligations.ResetIsSafe :=
  ⟨hardwareReset_reset ▸ safe_hardwareReset State.reset, safe_hardwareReset⟩

end Sys2Proof.Machine
end

section
/-!
The host-visible registers (10_state.md R45).
-/

namespace Sys2Proof.Machine

/-- The fields of `STATUS`. The register's width, 16, is not the literal sum of the fields' widths that the lemmas about
`++` name, so `simp` must look for them without its index; so also for `SEQ` and the frame. -/
theorem regStatus_fields (s : State) :
    (regStatus s).extractLsb' 0 2 = s.rspStatus.code ∧ (regStatus s).getLsbD 2 = s.rspValid ∧
    (regStatus s).getLsbD 3 = busyOut s ∧ (regStatus s).extractLsb' 4 2 = s.sessState.code ∧
    (regStatus s).getLsbD 6 = s.crcOk ∧ (regStatus s).getLsbD 7 = s.hasTemp ∧ (regStatus s).getLsbD 8 = s.hasHum ∧
    (regStatus s).getLsbD 9 = s.frameFull ∧ (regStatus s).getLsbD 10 = s.handleValid ∧
    (regStatus s).extractLsb' 11 3 = s.curOp ∧ (regStatus s).extractLsb' 14 2 = 0#2 := by
  unfold regStatus bit
  simp -index only [BitVec.extractLsb'_append_eq_right, BitVec.extractLsb'_append_eq_of_le, BitVec.getLsbD_append,
    Nat.reduceLeDiff, Nat.reduceSub]
  simp

/-- The fields of `SEQ`. -/
theorem regSeq_fields (s : State) :
    (regSeq s).extractLsb' 0 4 = s.seq.code ∧ (regSeq s).getLsbD 4 = s.trPending ∧
    (regSeq s).extractLsb' 5 3 = 0#3 := by
  unfold regSeq bit
  simp -index only [BitVec.extractLsb'_append_eq_right, BitVec.extractLsb'_append_eq_of_le, BitVec.getLsbD_append,
    Nat.reduceLeDiff, Nat.reduceSub]
  simp

/-- The bytes of `FRAME_LO`. -/
theorem regFrameLo_bytes (s : State) :
    (regFrameLo s).extractLsb' 0 8 = s.frame.b0 ∧ (regFrameLo s).extractLsb' 8 8 = s.frame.b1 ∧
    (regFrameLo s).extractLsb' 16 8 = s.frame.b2 ∧ (regFrameLo s).extractLsb' 24 8 = s.frame.b3 := by
  unfold regFrameLo
  simp -index only [BitVec.extractLsb'_append_eq_right, BitVec.extractLsb'_append_eq_of_le, BitVec.extractLsb'_eq_self,
    Nat.reduceLeDiff, Nat.reduceSub]
  simp

/-- The bytes of `FRAME_HI`. -/
theorem regFrameHi_bytes (s : State) :
    (regFrameHi s).extractLsb' 0 8 = s.frame.b4 ∧ (regFrameHi s).extractLsb' 8 8 = s.frame.b5 ∧
    (regFrameHi s).extractLsb' 16 8 = s.frame.b6 := by
  unfold regFrameHi
  simp -index only [BitVec.extractLsb'_append_eq_right, BitVec.extractLsb'_append_eq_of_le, BitVec.extractLsb'_eq_self,
    Nat.reduceLeDiff, Nat.reduceSub]
  simp

/-- The fields of `CFG`, whatever BUS_W is. -/
theorem regCfg_fields (s : State) :
    (regCfg s).extractLsb' 0 16 = s.cfgPollLimit ∧ (regCfg s).getLsbD 16 = s.cfgCrcLenient ∧
    (regCfg s).extractLsb' 17 Config.busW = s.cfgBusIndex := by
  unfold regCfg bit
  simp only [BitVec.extractLsb'_append_eq_right, BitVec.extractLsb'_append_eq_of_le, BitVec.getLsbD_append,
    BitVec.extractLsb'_eq_self, Nat.reduceLeDiff, Nat.reduceSub]
  simp

/-- Only the numbers 0 to 9 are assigned. -/
theorem readReg_eq_none {n : Nat} (hn : 10 ≤ n) (s : State) : readReg n s = none := by
  obtain ⟨k, rfl⟩ := Nat.exists_eq_add_of_le hn
  rw [Nat.add_comm]
  rfl

/-- Settles O52, register by register. -/
theorem hostRegisterFields : Obligations.HostRegisterFields := fun s => by
  simp only [regStatus_fields, regSeq_fields, regFrameLo_bytes, regFrameHi_bytes, regCfg_fields, true_and]
  exact ⟨rfl, rfl, rfl, rfl, rfl, rfl, rfl, rfl, rfl, rfl, fun n hn => readReg_eq_none hn s⟩

end Sys2Proof.Machine
end

section
/-!
The transport (20_memory.md): requests and answers alternate (R68, R75).
-/

namespace Sys2Proof.Machine

/-! ### Counting requests and answers -/

theorem requestCount_append (a b : List Event) : requestCount (a ++ b) = requestCount a + requestCount b := by
  induction a with
  | nil => simp [requestCount]
  | cons e es ih => cases e <;> simp only [List.cons_append, requestCount, ih, Nat.add_right_comm]

theorem answerCount_append (a b : List Event) : answerCount (a ++ b) = answerCount a + answerCount b := by
  induction a with
  | nil => simp [answerCount]
  | cons e es ih => cases e <;> simp only [List.cons_append, answerCount, ih, Nat.add_right_comm]

/-- The event of an issue step counts as one request and no answer. -/
theorem counts_reqEvent (r : TrReq) : requestCount [reqEvent r] = 1 ∧ answerCount [reqEvent r] = 0 := by
  cases r <;> exact ⟨rfl, rfl⟩

/-- The requests issued are the answers received, and one more exactly while `tr_pending` is 1. -/
def RequestsAnswered (s : State) : Prop :=
  requestCount s.trace = answerCount s.trace + (if s.trPending then 1 else 0)

/-- The counts stay matched when the events of a step are matched by the change of `tr_pending`. -/
theorem RequestsAnswered.append {s u : State} {es : List Event} (h : RequestsAnswered s) (htr : u.trace = s.trace ++ es)
    (hes : (if s.trPending then 1 else 0) + requestCount es = answerCount es + (if u.trPending then 1 else 0)) :
    RequestsAnswered u := by
  unfold RequestsAnswered at h ⊢
  rw [htr, requestCount_append, answerCount_append, h, Nat.add_assoc, hes, Nat.add_assoc]

theorem requestsAnswered_hardwareReset (s : State) : RequestsAnswered (hardwareReset s) := rfl

theorem requestsAnswered_sampleInputs {s : State} (h : RequestsAnswered s) : RequestsAnswered (sampleInputs s) := by
  simpa [RequestsAnswered] using h

/-- Outside the transport states no request is outstanding (10_state.md R26). -/
theorem StateInv.not_pending {s : State} (h : StateInv s) (hq : usesTransport s.seq = false) : s.trPending = false := by
  cases hp : s.trPending
  · rfl
  · simp [h.pending_transport hp] at hq

/-- Every move keeps the counts matched: an issue raises `tr_pending` with its request, an answer lowers it, and an
acceptance or the end of a delay comes while it is 0. -/
theorem Move.requestsAnswered {s u : State} (hm : Move s u) (hi : StateInv s) (h : RequestsAnswered s) :
    RequestsAnswered u := by
  cases hm with
  | idleWait | wait | tick | delayWait => exact h
  | issue r _ hp => exact h.append rfl (by simp [counts_reqEvent, hp])
  | ioError _ _ hp | opened _ hp | calibrated _ hp | uncalibrated _ hp | delayStarted _ _ _ hp | pollClear _ hp
    | pollTimeout _ hp | pollBusy _ hp | frameRead _ hp =>
    exact h.append rfl (by simp [requestCount, answerCount, hp])
  | refused hq | initAccepted hq | measureAccepted hq | resetAccepted hq | initExpired hq | resetExpired hq =>
    have hp := hi.not_pending (by simp [hq, usesTransport])
    exact h.append rfl (by simp [requestCount, answerCount, hp])
  | settleExpired hq =>
    have hp := hi.not_pending (by simp [hq, usesTransport])
    exact h.append (List.append_nil _).symm (by simp [requestCount, answerCount, hp])

/-- Settles O42: a hardware reset empties the trace with no request outstanding, and every move keeps the counts matched. -/
theorem oneRequestOutstanding : Obligations.OneRequestOutstanding := fun _ _ hi h hs =>
  step_keeps (P := RequestsAnswered) requestsAnswered_hardwareReset (fun _ => requestsAnswered_sampleInputs)
    (fun _ hm => hm.requestsAnswered hi hs) h

end Sys2Proof.Machine
end

section
/-!
The transport's single steps: the issue step of each request (20_memory.md R66), and failing answers (R69, 60_exceptions.md
R205).
-/

namespace Sys2Proof.Machine

/-! ### Which transaction a request runs in the states that issue it (30_encoding.md R94) -/

theorem exec_trOpen_initOpen {s : State} (hq : s.seq = .initOpen) : exec .trOpen s = .next (transact answerOpen s) := by
  simp [exec, execTrOpen, hq]

theorem exec_trRead1_initStatus {s : State} (hq : s.seq = .initStatus) :
    exec .trRead1 s = .next (transact answerInitStatus s) := by
  simp [exec, execTrRead1, hq]

theorem exec_trWrite3_initWrite {s : State} (hq : s.seq = .initWrite) :
    exec .trWrite3 s = .next (transact answerInitWrite s) := by
  simp [exec, execTrWrite3, hq]

theorem exec_trWrite3_measTrigger {s : State} (hq : s.seq = .measTrigger) :
    exec .trWrite3 s = .next (transact answerTrigger s) := by
  simp [exec, execTrWrite3, hq]

theorem exec_trRead1_measPoll {s : State} (hq : s.seq = .measPoll) : exec .trRead1 s = .next (transact answerPoll s) := by
  simp [exec, execTrRead1, hq]

theorem exec_trRead7_measFrame {s : State} (hq : s.seq = .measFrame) :
    exec .trRead7 s = .next (transact answerFrameRead s) := by
  simp [exec, execTrRead7, hq]

theorem exec_trWrite1_rstWrite {s : State} (hq : s.seq = .rstWrite) :
    exec .trWrite1 s = .next (transact answerRstWrite s) := by
  simp [exec, execTrWrite1, hq]

/-! ### The issue step -/

/-- Before its request is issued, a state's transaction records the request, sets `tr_pending` and does nothing else. -/
theorem transact_of_request {answer : State → State} {s : State} {r : TrReq} (hp : s.trPending = false)
    (hr : seqRequest s = some r) :
    transact answer s = { s with trPending := true, trace := s.trace ++ [reqEvent r] } := by
  rw [transact_issue hp, issueRequest_of_port ((requestPort_of_not_pending hp).trans hr)]
  rfl

/-- An instruction that runs a state's transaction issues the state's request. -/
theorem exec_issue {i : Instr} {answer : State → State} {s : State} (r : TrReq) (hp : s.trPending = false)
    (hx : exec i s = .next (transact answer s)) (hr : seqRequest s = some r) :
    exec i s = .next { s with trPending := true, trace := s.trace ++ [reqEvent r] } := by
  rw [hx, transact_of_request hp hr]

/-- Settles O18: in each state the instruction runs the state's transaction, which issues the state's request. -/
theorem issueSteps : Obligations.IssueSteps := fun s hp =>
  ⟨fun hq => exec_issue (.open s.cfgBusIndex devAddr s.cfgOpenFlags) hp (exec_trOpen_initOpen hq) (by simp [seqRequest, hq]),
    fun hq => exec_issue (.read s.handle 1) hp (exec_trRead1_initStatus hq) (by simp [seqRequest, hq]),
    fun hq => exec_issue (.write s.handle (cmdBytes .init)) hp (exec_trWrite3_initWrite hq) (by simp [seqRequest, hq]),
    fun hq => exec_issue (.write s.handle (cmdBytes .trigger)) hp (exec_trWrite3_measTrigger hq) (by simp [seqRequest, hq]),
    fun hq => exec_issue (.read s.handle 1) hp (exec_trRead1_measPoll hq) (by simp [seqRequest, hq]),
    fun hq => exec_issue (.read s.handle frameLen) hp (exec_trRead7_measFrame hq) (by simp [seqRequest, hq]),
    fun hq => exec_issue (.write s.handle (cmdBytes .softReset)) hp (exec_trWrite1_rstWrite hq)
      (by simp [seqRequest, hq])⟩

/-! ### A failing answer -/

/-- `raise IoError` after the answer is recorded, as one state. -/
theorem raiseOutcome_ioError_receiveAnswer (k : TrKind) (s : State) :
    raiseOutcome .ioError (receiveAnswer k s) = Spec.ioErrorRaised k s := by
  simp [raiseOutcome, complete, receiveAnswer, emit, raisedStatus, raisedSession, Spec.ioErrorRaised]

/-- A read is answered badly by `IoError` or by another length than asked for (20_memory.md R69). -/
theorem readOk_eq_false_iff (n : Nat) (p : Pins) : readOk n p = false ↔ p.rspErr = true ∨ p.rspLen.toNat ≠ n := by
  rw [← Bool.not_eq_true, readOk_iff, not_and_or, Bool.not_eq_false]

/-- In every transport state a failing answer is recorded and raises `IoError`. -/
theorem runStep_of_answerFails {s : State} {r : TrReq} (hr : seqRequest s = some r) (hp : s.trPending = true)
    (hv : s.pins.rspValid = true) (hf : answerFails s = true) : runStep s = Spec.ioErrorRaised (reqKind r) s := by
  rw [← raiseOutcome_ioError_receiveAnswer]
  cases hq : s.seq with
  | idle | initDelay | measSettle | rstDelay => simp [seqRequest, hq] at hr
  | initOpen | initWrite | measTrigger | rstWrite =>
    have he : s.pins.rspErr = true := by simpa [answerFails, hq] using hf
    obtain rfl : _ = r := by simpa [seqRequest, hq] using hr
    simp [runStep, hq, transact_answer hp hv, answerOpen, answerInitWrite, answerTrigger, answerRstWrite, he, reqKind]
  | initStatus | measPoll | measFrame =>
    simp only [answerFails, hq, Bool.not_eq_true'] at hf
    obtain rfl : _ = r := by simpa [seqRequest, hq] using hr
    simp [runStep, hq, transact_answer hp hv, answerInitStatus, answerPoll, answerFrameRead, frameLen, hf, reqKind]

/-- Settles O28: such an answer fails, and the step of a failing answer is `raise IoError`. -/
theorem failedReadsStoreNothing : Obligations.FailedReadsStoreNothing := by
  intro s hr hp hv hbad
  obtain ⟨r, hreq, hread, hf⟩ : ∃ r, seqRequest s = some r ∧ reqKind r = .read ∧ answerFails s = true := by
    obtain ⟨hq | hq, hbad⟩ | ⟨hq, hbad⟩ := hbad
    · exact ⟨.read s.handle 1, by simp [seqRequest, hq], rfl, by simp [answerFails, hq, (readOk_eq_false_iff 1 _).2 hbad]⟩
    · exact ⟨.read s.handle 1, by simp [seqRequest, hq], rfl, by simp [answerFails, hq, (readOk_eq_false_iff 1 _).2 hbad]⟩
    · exact ⟨.read s.handle 7, by simp [seqRequest, hq, frameLen], rfl,
        by simp [answerFails, hq, (readOk_eq_false_iff 7 _).2 hbad]⟩
  rw [step_run hr, runStep_of_answerFails hreq hp hv hf, hread]

end Sys2Proof.Machine
end

section
/-!
The encodings (30_encoding.md R91, R93, R94, R102): decoder and encoder are inverse, the words accepted are the assigned
codes, the request port takes the table's codes, and a placed word is what the next step runs.
-/

namespace Sys2Proof.Machine

/-! ### A word that decodes is the word of the instruction it decodes to -/

theorem encode_decodeHostop (c : OpCode) : encode (decodeHostop c) = ⟨.hostop, [hostopByte c]⟩ := by
  rcases opCode_cases c with rfl | rfl | rfl | rfl | rfl | rfl | rfl | rfl <;> rfl

/-- A byte with nothing above bit 2 is its three low bits in a byte. -/
theorem hostopByte_extractLsb' {b : Byte} (h : b.extractLsb' 3 5 = 0#5) : hostopByte (b.extractLsb' 0 3) = b := by
  revert b; decide

theorem encode_of_decodeHostopByte {b : Byte} {i : Instr} (h : decodeHostopByte b = .ok i) :
    encode i = ⟨.hostop, [b]⟩ := by
  unfold decodeHostopByte at h
  split at h
  case isTrue hb =>
    cases h
    rw [encode_decodeHostop, hostopByte_extractLsb' hb]
  case isFalse => cases h

theorem code_of_kindOfCode {c : BitVec 2} {k : TrKind} (h : kindOfCode c = some k) : k.code = c := by
  revert c k; decide

/-- A byte with nothing above bit 4 is the pair of its kind and its length in a byte. -/
theorem trreqByte_extractLsb' {b : Byte} {k : TrKind} (hb : b.extractLsb' 5 3 = 0#3) (hk : k.code = b.extractLsb' 3 2) :
    trreqByte k (b.extractLsb' 0 3) = b := by
  rw [trreqByte, hk]
  clear hk
  revert b; decide

theorem encode_of_decodeTrreq {k : TrKind} {c : BitVec 2} {len : BitVec 3} {i : Instr} (hk : kindOfCode c = some k)
    (h : decodeTrreq c len = .ok i) : encode i = ⟨.trreq, [trreqByte k len]⟩ := by
  match k with
  | .open =>
    simp only [decodeTrreq, hk] at h
    split at h
    case isTrue hl => cases h; rw [hl]; rfl
    case isFalse => cases h
  | .write | .read =>
    simp only [decodeTrreq, hk] at h
    split at h
    case isTrue hl => cases h; rw [hl]; rfl
    case isFalse =>
      split at h
      case isTrue hl => cases h; rw [hl]; rfl
      case isFalse => cases h

theorem encode_of_decodeTrreqByte {b : Byte} {i : Instr} (h : decodeTrreqByte b = .ok i) :
    encode i = ⟨.trreq, [b]⟩ := by
  unfold decodeTrreqByte at h
  split at h
  case isTrue hb =>
    cases hk : kindOfCode (b.extractLsb' 3 2) with
    | none => simp [decodeTrreq, hk] at h
    | some k => rw [encode_of_decodeTrreq hk h, trreqByte_extractLsb' hb (code_of_kindOfCode hk)]
  case isFalse => cases h

theorem exists_command_of_decodeCommand {bytes : List Byte} {i : Instr} (h : decodeCommand bytes = .ok i) :
    ∃ c, bytes = cmdBytes c ∧ encode i = commandWord c := by
  unfold decodeCommand at h
  split at h
  case isTrue hc => cases h; exact ⟨.init, hc, rfl⟩
  case isFalse =>
    split at h
    case isTrue hc => cases h; exact ⟨.trigger, hc, rfl⟩
    case isFalse =>
      split at h
      case isTrue hc => cases h; exact ⟨.softReset, hc, rfl⟩
      case isFalse => cases h

/-- The number of bytes tells the two formats of a command apart. -/
theorem commandWord_of_length {f : Format} {c : WireCmd} (hf : f = .wire1 ∨ f = .wire3)
    (hl : (cmdBytes c).length = f.byteCount) : commandWord c = ⟨f, cmdBytes c⟩ := by
  cases c with
  | init | trigger =>
    obtain rfl | rfl := hf
    · simp [cmdBytes, Format.byteCount] at hl
    · rfl
  | softReset =>
    obtain rfl | rfl := hf
    · rfl
    · simp [cmdBytes, Format.byteCount] at hl

theorem encode_of_decodeCommand {f : Format} {bytes : List Byte} {i : Instr} (hf : f = .wire1 ∨ f = .wire3)
    (hl : bytes.length = f.byteCount) (h : decodeCommand bytes = .ok i) : encode i = ⟨f, bytes⟩ := by
  obtain ⟨c, rfl, hc⟩ := exists_command_of_decodeCommand h
  rw [hc, commandWord_of_length hf hl]

theorem length_of_decode {f : Format} {bytes : List Byte} {i : Instr} (h : decode f bytes = .ok i) :
    bytes.length = f.byteCount := by
  by_contra hl
  simp [decode, hl] at h

theorem encode_of_decode {f : Format} {bytes : List Byte} {i : Instr} (h : decode f bytes = .ok i) :
    encode i = ⟨f, bytes⟩ := by
  have hl := length_of_decode h
  simp only [decode, hl, if_true] at h
  cases f with
  | hostop =>
    obtain ⟨b, rfl⟩ := List.length_eq_one_iff.1 hl
    exact encode_of_decodeHostopByte h
  | trreq =>
    obtain ⟨b, rfl⟩ := List.length_eq_one_iff.1 hl
    exact encode_of_decodeTrreqByte h
  | wire1 => exact encode_of_decodeCommand (.inl rfl) hl h
  | wire3 => exact encode_of_decodeCommand (.inr rfl) hl h

/-! ### The word of an instruction decodes to it -/

theorem decode_encode (i : Instr) : decode (encode i).format (encode i).bytes = .ok i := by
  cases i <;> decide

/-- Settles O1: what decodes is an instruction's word, and an instruction's word decodes to it. -/
theorem decodeInvertsEncode : Obligations.DecodeInvertsEncode := fun f bytes i =>
  ⟨encode_of_decode, fun h => by simpa [h] using decode_encode i⟩

/-- Settles O3: the eight words are those the encoder writes. -/
theorem writtenWordsDecode : Obligations.WrittenWordsDecode :=
  ⟨decode_encode .opInit, decode_encode .opGetAll, decode_encode .opReserved7, decode_encode .trOpen,
    decode_encode .trWrite1, decode_encode .trRead7, decode_encode .cmdTrigger, decode_encode .cmdSoftReset⟩

/-! ### The accepted words are the assigned codes -/

theorem bytesNat_append_singleton (bs : List Byte) (b : Byte) : bytesNat (bs ++ [b]) = bytesNat bs * 256 + b.toNat := by
  simp [bytesNat]

/-- The bytes are the base 256 digits of their number, the last byte least significant. -/
theorem bytesNat_eq_ofDigits (bs : List Byte) : bytesNat bs = Nat.ofDigits 256 (bs.reverse.map BitVec.toNat) := by
  induction bs using List.reverseRecOn with
  | nil => rfl
  | append_singleton bs b ih =>
    rw [bytesNat_append_singleton, ih, List.reverse_concat, List.map_cons, Nat.ofDigits_cons]
    omega

theorem bytesNat_inj {as bs : List Byte} (hl : as.length = bs.length) (h : bytesNat as = bytesNat bs) : as = bs := by
  have hdigits (l : List Byte) : ∀ d ∈ l.reverse.map BitVec.toNat, d < 256 := by
    simpa using fun b _ => b.isLt
  rw [bytesNat_eq_ofDigits, bytesNat_eq_ofDigits] at h
  have hmap := Nat.ofDigits_inj_of_len_eq (by decide) (by simpa using hl) (hdigits as) (hdigits bs) h
  exact List.reverse_injective (List.map_injective_iff.2 (fun _ _ => BitVec.eq_of_toNat_eq) hmap)

theorem wf_iff (f : Format) (bytes : List Byte) :
    (Encoded.mk f bytes).wf = true ↔ bytes.length = f.byteCount ∧ bytesNat bytes ∈ f.assigned := by
  simp [Encoded.wf]

/-- Each assigned code is the number of a word of the format's length that decodes. -/
theorem decode_of_mem_assigned (f : Format) : ∀ n ∈ f.assigned,
    (tableBytes f n).length = f.byteCount ∧ bytesNat (tableBytes f n) = n ∧
      (decode f (tableBytes f n)).toOption.isSome = true := by
  cases f <;> decide

theorem isSome_decode_of_wf {f : Format} {bytes : List Byte} (h : (Encoded.mk f bytes).wf = true) :
    (decode f bytes).toOption.isSome = true := by
  obtain ⟨hl, hn⟩ := (wf_iff f bytes).1 h
  obtain ⟨hlen, hnat, hdec⟩ := decode_of_mem_assigned f _ hn
  rwa [bytesNat_inj (hlen.trans hl.symm) hnat] at hdec

theorem wf_of_decode {f : Format} {bytes : List Byte} {i : Instr} (h : decode f bytes = .ok i) :
    (Encoded.mk f bytes).wf = true := by
  obtain ⟨-, -, hwf⟩ := Laws.TableWord.all i
  rwa [encode_of_decode h] at hwf

/-- Settles O2: an accepted word is an instruction's, whose code is assigned; an assigned code has one word of the format's
length, and it decodes. -/
theorem acceptedWordsAreAssigned : Obligations.AcceptedWordsAreAssigned := by
  refine fun f bytes => ⟨fun h => ?_, isSome_decode_of_wf⟩
  cases hd : decode f bytes with
  | ok i => exact wf_of_decode hd
  | error e => simp [hd, Except.toOption] at h

/-! ### The request port (30_encoding.md R94) -/

/-- Settles O4: before its issue each state's request stands on the port; its code and data are computed from it. -/
theorem requestPortFollowsTable : Obligations.RequestPortFollowsTable := by
  intro s hp
  rw [requestPort_of_not_pending hp]
  cases hq : s.seq with
  | idle | initDelay | measSettle | rstDelay => simp [seqRequest, hq]
  | initOpen | initStatus | initWrite | measTrigger | measPoll | measFrame | rstWrite =>
    refine ⟨_, ?_, rfl, ?_, ?_⟩
    · simp [seqRequest, hq, devAddr, frameLen, cmdBytes]
    · simp [reqKind, TrKind.code, reqLen]
    · simp [reqWdata, packBytes]

/-! ### Requests and commands outside their states -/

/-- Settles O29: the test of the sequencer state fails, and the other branch is the state itself. -/
theorem unselectedRequestsDoNothing : Obligations.UnselectedRequestsDoNothing := fun s =>
  ⟨fun h => by simp [exec, execTrOpen, h], fun h => by simp [exec, execTrWrite1, execCmdSoftReset, h],
    fun ht hi => by simp [exec, execTrWrite3, ht, hi], fun hp hi => by simp [exec, execTrRead1, hp, hi],
    fun h => by simp [exec, execTrRead7, h], fun h => by simp [exec, execCmdInit, h],
    fun h => by simp [exec, execCmdTrigger, h]⟩

/-! ### Placed words -/

theorem placeInstr_reset (i : Instr) (s : State) : (placeInstr i s).pins.reset = false := by
  cases i <;> rfl

/-- A placed instruction's own word is what the core presents. -/
theorem fetchWord_placeInstr (i : Instr) (s : State) : fetchWord (placeInstr i s) = some (encode i) := by
  cases i <;> rfl

theorem step_placeInstr (i : Instr) (s : State) : step (placeInstr i s) = thenSample (exec i (placeInstr i s)) :=
  step_of_word (placeInstr_reset i s) (fetchWord_placeInstr i s) (decode_encode i)

theorem withFetchWord_of_decode {nbits w : Nat} {i : Instr} (h : decodeTableWord nbits w = some i) (s : State) :
    s.withFetchWord nbits w = placeInstr i s := by
  simp [State.withFetchWord, placeTableWord, h]

/-- Settles O31: each of the sixteen words reads as its row, and a placed row is what the step runs. -/
theorem placedWordsRun : Obligations.PlacedWordsRun := by
  intro s p hp
  have hd : decodeTableWord p.1 p.2.1 = some p.2.2 := by
    revert p
    decide
  exact ⟨hd, withFetchWord_of_decode hd s ▸ step_placeInstr p.2.2 s⟩

end Sys2Proof.Machine
end

section
/-!
The Checksum Unit and the validity of a frame (40_crc8.md R120 to R122, R125): the shift of the model is the rule's, it
distributes over XOR, and so do the byte step and the fold over a sequence.
-/

namespace Sys2Proof.Machine

/-! ### Shifts and the byte step -/

theorem crcShift_eq_crcShiftOfRule (a : Byte) : crcShift a = Spec.crcShiftOfRule a := by
  unfold crcShift Spec.crcShiftOfRule crcPoly
  split
  · rfl
  · rw [BitVec.xor_zero]

theorem crcShifts_eq_iterate (n : Nat) (a : Byte) : crcShifts n a = Spec.crcShiftOfRule^[n] a := by
  induction n generalizing a with
  | zero => rfl
  | succ n ih => rw [crcShifts, ih, crcShift_eq_crcShiftOfRule, Function.iterate_succ_apply]

/-- The bit that selects the polynomial is XORed like the others. -/
theorem crcShiftOfRule_xor (a b : Byte) :
    Spec.crcShiftOfRule (a ^^^ b) = Spec.crcShiftOfRule a ^^^ Spec.crcShiftOfRule b := by
  have hpoly : (if (a ^^^ b).getLsbD 7 then 0x31#8 else 0x00#8) =
      (if a.getLsbD 7 then 0x31#8 else 0x00#8) ^^^ (if b.getLsbD 7 then 0x31#8 else 0x00#8) := by
    rw [BitVec.getLsbD_xor]
    cases a.getLsbD 7 <;> cases b.getLsbD 7 <;> rfl
  unfold Spec.crcShiftOfRule
  rw [hpoly, BitVec.shiftLeft_xor_distrib]
  ac_rfl

theorem crcShifts_xor (n : Nat) (a b : Byte) : crcShifts n (a ^^^ b) = crcShifts n a ^^^ crcShifts n b := by
  induction n generalizing a b with
  | zero => rfl
  | succ n ih => simp only [crcShifts, crcShift_eq_crcShiftOfRule, crcShiftOfRule_xor, ih]

theorem crc8Byte_xor (a b d e : Byte) : crc8Byte (a ^^^ b) (d ^^^ e) = crc8Byte a d ^^^ crc8Byte b e := by
  rw [crc8Byte, crc8Byte, crc8Byte, ← crcShifts_xor]
  congr 1
  ac_rfl

@[simp] theorem crc8Byte_self (a : Byte) : crc8Byte a a = 0#8 := by
  rw [crc8Byte, BitVec.xor_self]
  decide

/-! ### The fold over a sequence -/

theorem crc8_append (b c : List Byte) : crc8 (b ++ c) = c.foldl crc8Byte (crc8 b) := by
  rw [crc8, crc8, List.foldl_append]

theorem crc8_append_crc8 (b : List Byte) : crc8 (b ++ [crc8 b]) = 0#8 := by
  rw [crc8_append, List.foldl_cons, List.foldl_nil, crc8Byte_self]

/-- Sequences of one length, folded from any three seeds; the zeros of the third leave the bytewise XOR of the other two. -/
theorem foldl_crc8Byte_zipWith_xor (x y z : Byte) (b c : List Byte) (h : b.length = c.length) :
    (List.zipWith (· ^^^ ·) b c).foldl crc8Byte (x ^^^ y ^^^ z) =
      b.foldl crc8Byte x ^^^ c.foldl crc8Byte y ^^^ (List.replicate b.length 0#8).foldl crc8Byte z := by
  induction b generalizing x y z c with
  | nil => rw [List.length_eq_zero_iff.1 h.symm]; rfl
  | cons d b ih =>
    obtain ⟨e, c, rfl⟩ := List.exists_cons_of_length_eq_add_one h.symm
    have hbyte : crc8Byte (x ^^^ y ^^^ z) (d ^^^ e) = crc8Byte x d ^^^ crc8Byte y e ^^^ crc8Byte z 0#8 := by
      rw [← crc8Byte_xor, ← crc8Byte_xor, BitVec.xor_zero]
    simp only [List.zipWith_cons_cons, List.length_cons, List.replicate_succ, List.foldl_cons, hbyte]
    exact ih _ _ _ c (Nat.succ.inj h)

/-- The instance for three seeds 0xFF, whose XOR is 0xFF again. -/
theorem crc8_zipWith_xor (b c : List Byte) (h : b.length = c.length) :
    crc8 (List.zipWith (· ^^^ ·) b c) = crc8 b ^^^ crc8 c ^^^ crc8 (List.replicate b.length 0#8) :=
  foldl_crc8Byte_zipWith_xor crcSeed crcSeed crcSeed b c h

/-- Settles O6: appending is that of the fold, eight shifts of 0 give 0, and the byte step distributes over XOR. -/
theorem crcAlgebra : Obligations.CrcAlgebra :=
  ⟨crc8_append, crc8_append_crc8, fun b c h => (crc8_zipWith_xor b c h).symm⟩

/-- Settles O5: the model's shift is the rule's, iterated; the worked examples are evaluated. -/
theorem crcFoldsTheByteStep : Obligations.CrcFoldsTheByteStep :=
  ⟨fun acc d => crcShifts_eq_iterate 8 (acc ^^^ d), fun _ => rfl, by decide, by decide +kernel⟩

/-! ### Frames -/

theorem validateFrame_iff (present : Bool) (f : Frame) (lenient : Bool) :
    validateFrame present f lenient = true ↔
      present = true ∧ (frameCrc f = f.b6 ∨ (lenient = true ∧ f.b6 = 0xFF#8)) := by
  cases present with
  | false => simp [validateFrame]
  | true => by_cases hcrc : frameCrc f = f.b6 <;> simp [validateFrame, hcrc]

/-- Settles O7: the checksum of the frame is the `crc8` of its first six bytes. -/
theorem frameValidity : Obligations.FrameValidity := validateFrame_iff

end Sys2Proof.Machine
end

section
/-!
The Frame Decoder (41_frame_decoder.md R135 to R142): the two raw fields are concatenations of bytes and nibbles, the
scaled registers are exact, and the fields with the status and the checksum byte are in bijection with the frame.
-/

namespace Sys2Proof.Machine

/-! ### Nibbles and concatenations of three words -/

theorem and_lowMask (b : Byte) : b &&& 0x0F#8 = (b.extractLsb' 0 4).setWidth 8 := by
  have hmask : (b &&& 0x0F#8).toNat = b.toNat % 16 := Nat.and_two_pow_sub_one_eq_mod b.toNat 4
  apply BitVec.eq_of_toNat_eq
  rw [hmask, BitVec.toNat_setWidth, BitVec.extractLsb'_toNat, Nat.shiftRight_zero]
  omega

theorem and_highMask_shiftRight (b : Byte) : (b &&& 0xF0#8) >>> 4 = (b.extractLsb' 4 4).setWidth 8 :=
  calc (b &&& 0xF0#8) >>> 4
    _ = b >>> 4 &&& 0x0F#8 := BitVec.ushiftRight_and_distrib b 0xF0#8 4
    _ = ((b >>> 4).extractLsb' 0 4).setWidth 8 := and_lowMask (b >>> 4)
    _ = (b.extractLsb' 4 4).setWidth 8 := rfl

theorem highNibble_append_lowNibble (b : Byte) : (b.extractLsb' 4 4 ++ b.extractLsb' 0 4 : BitVec 8) = b :=
  (BitVec.extractLsb'_append_extractLsb'_eq_extractLsb' rfl).trans BitVec.extractLsb'_eq_self

section
variable {u v w : Nat} (x : BitVec u) (y : BitVec v) (z : BitVec w)

theorem setWidth_append_append {n k : Nat} (hk : k = v + w) :
    (x ++ y ++ z).setWidth n = x.setWidth n <<< k ||| y.setWidth n <<< w ||| z.setWidth n := by
  rw [BitVec.setWidth_append_eq_shiftLeft_setWidth_or, BitVec.setWidth_append_eq_shiftLeft_setWidth_or,
    BitVec.shiftLeft_or_distrib, ← BitVec.shiftLeft_add, hk]

theorem extractLsb'_append_append_left : (x ++ y ++ z).extractLsb' (w + v) u = x := by
  rw [BitVec.extractLsb'_append_eq_of_le (Nat.le_add_right w v), Nat.add_sub_cancel_left,
    BitVec.extractLsb'_append_eq_left]

theorem extractLsb'_append_append_mid : (x ++ y ++ z).extractLsb' w v = y := by
  rw [BitVec.extractLsb'_append_eq_of_le (Nat.le_refl w), Nat.sub_self, BitVec.extractLsb'_append_eq_right]

theorem extractLsb'_append_append_extractLsb' (r : BitVec (u + v + w)) :
    r.extractLsb' (w + v) u ++ r.extractLsb' w v ++ r.extractLsb' 0 w = r := by
  rw [BitVec.extractLsb'_append_extractLsb'_eq_extractLsb' rfl,
    BitVec.extractLsb'_append_extractLsb'_eq_extractLsb' (Nat.zero_add w).symm, BitVec.extractLsb'_eq_self]

end

/-! ### The raw fields -/

theorem rawTemp_eq_append (f : Frame) : rawTemp f = (f.b3.extractLsb' 0 4 ++ f.b4 ++ f.b5 : BitVec 20) := by
  rw [rawTemp, and_lowMask, BitVec.setWidth_setWidth (by decide),
    ← setWidth_append_append _ _ _ (show 16 = 8 + 8 from rfl)]
  exact BitVec.setWidth_eq _

theorem rawHumidity_eq_append (f : Frame) : rawHumidity f = (f.b1 ++ f.b2 ++ f.b3.extractLsb' 4 4 : BitVec 20) := by
  rw [rawHumidity, and_highMask_shiftRight, BitVec.setWidth_setWidth (by decide),
    ← setWidth_append_append _ _ _ (show 12 = 8 + 4 from rfl)]
  exact BitVec.setWidth_eq _

/-- Settles O8: a mask is a nibble, and shifts by the lower widths joined by OR are a concatenation; the worked examples
are evaluated. -/
theorem fieldsAreConcatenations : Obligations.FieldsAreConcatenations := by
  refine ⟨rawTemp_eq_append, rawHumidity_eq_append, fun f h3 h4 h5 => ?_, fun f h1 h2 h3 => ?_⟩
  · rw [rawTemp_eq_append, h3, h4, h5]
    decide
  · rw [rawHumidity_eq_append, h1, h2, h3]
    decide

/-! ### The scaled registers -/

theorem decodeTemperature_toInt (f : Frame) :
    (decodeTemperature f).toInt = ((rawTemp f).toNat : Int) * 200 - 52428800 := scaleTemp_toInt (rawTemp f)

theorem decodeHumidity_toNat (f : Frame) : (decodeHumidity f).toNat = (rawHumidity f).toNat * 100 :=
  scaleHum_toNat (rawHumidity f)

theorem exactTemperature_eq_div (f : Frame) : exactTemperature f = ((decodeTemperature f).toInt : ℚ) / 2 ^ 20 := by
  rw [exactTemperature, decodeTemperature_toInt]
  push_cast
  ring

theorem exactHumidity_eq_div (f : Frame) : exactHumidity f = ((decodeHumidity f).toNat : ℚ) / 2 ^ 20 := by
  rw [exactHumidity, decodeHumidity_toNat, Nat.cast_mul, Nat.cast_ofNat]

/-- Settles O9: the ranges and the sign follow from the exact values of the registers and the 20 bits of the raw fields. -/
theorem scalingIsExact : Obligations.ScalingIsExact := fun f => by
  have ht := decodeTemperature_toInt f
  have hh := decodeHumidity_toNat f
  have hrawT := (rawTemp f).isLt
  have hrawH := (rawHumidity f).isLt
  exact ⟨ht, exactTemperature_eq_div f, rfl, hh, exactHumidity_eq_div f, rfl, by omega, by omega, by omega, by omega⟩

/-! ### The fields and the frame -/

/-- The frame of two raw fields, a status byte and a checksum byte (41_frame_decoder.md R142): the inverse of taking them
from a frame. -/
def frameOfFields (rt rh : Raw20) (st ck : Byte) : Frame where
  b0 := st
  b1 := rh.extractLsb' 12 8
  b2 := rh.extractLsb' 4 8
  b3 := (rh.extractLsb' 0 4 ++ rt.extractLsb' 16 4 : BitVec 8)
  b4 := rt.extractLsb' 8 8
  b5 := rt.extractLsb' 0 8
  b6 := ck

theorem rawTemp_frameOfFields (rt rh : Raw20) (st ck : Byte) : rawTemp (frameOfFields rt rh st ck) = rt := by
  have hlow : (frameOfFields rt rh st ck).b3.extractLsb' 0 4 = rt.extractLsb' 16 4 := BitVec.extractLsb'_append_eq_right
  rw [rawTemp_eq_append, hlow]
  exact extractLsb'_append_append_extractLsb' (u := 4) (v := 8) (w := 8) rt

theorem rawHumidity_frameOfFields (rt rh : Raw20) (st ck : Byte) : rawHumidity (frameOfFields rt rh st ck) = rh := by
  have hhigh : (frameOfFields rt rh st ck).b3.extractLsb' 4 4 = rh.extractLsb' 0 4 := BitVec.extractLsb'_append_eq_left
  rw [rawHumidity_eq_append, hhigh]
  exact extractLsb'_append_append_extractLsb' (u := 8) (v := 8) (w := 4) rh

theorem rawTemp_bytes (f : Frame) : (rawTemp f).extractLsb' 16 4 = f.b3.extractLsb' 0 4 ∧
    (rawTemp f).extractLsb' 8 8 = f.b4 ∧ (rawTemp f).extractLsb' 0 8 = f.b5 := by
  rw [rawTemp_eq_append]
  exact ⟨extractLsb'_append_append_left _ _ _, extractLsb'_append_append_mid _ _ _, BitVec.extractLsb'_append_eq_right⟩

theorem rawHumidity_bytes (f : Frame) : (rawHumidity f).extractLsb' 12 8 = f.b1 ∧
    (rawHumidity f).extractLsb' 4 8 = f.b2 ∧ (rawHumidity f).extractLsb' 0 4 = f.b3.extractLsb' 4 4 := by
  rw [rawHumidity_eq_append]
  exact ⟨extractLsb'_append_append_left _ _ _, extractLsb'_append_append_mid _ _ _, BitVec.extractLsb'_append_eq_right⟩

theorem frameOfFields_rawFields (f : Frame) : frameOfFields (rawTemp f) (rawHumidity f) f.b0 f.b6 = f := by
  obtain ⟨hlow, h4, h5⟩ := rawTemp_bytes f
  obtain ⟨h1, h2, hhigh⟩ := rawHumidity_bytes f
  rw [frameOfFields, hlow, h4, h5, h1, h2, hhigh, highNibble_append_lowNibble]

/-- Settles O10: `frameOfFields` is a two-sided inverse of the fields, which do not read bytes 0 and 6, and the scaled
registers are linear in them. -/
theorem frameBitsUsedOnce : Obligations.FrameBitsUsedOnce := by
  refine ⟨fun f g ht hh h0 h6 => ?_, fun rt rh st ck => ?_, fun _ _ => ⟨rfl, rfl⟩, fun _ _ => ⟨rfl, rfl⟩,
    fun f g hlt => ?_, fun f g hlt => ?_⟩
  · rw [← frameOfFields_rawFields f, ht, hh, h0, h6, frameOfFields_rawFields]
  · exact ⟨frameOfFields rt rh st ck, rawTemp_frameOfFields .., rawHumidity_frameOfFields .., rfl, rfl⟩
  · rw [decodeTemperature_toInt, decodeTemperature_toInt]
    omega
  · rw [decodeHumidity_toNat, decodeHumidity_toNat]
    omega

end Sys2Proof.Machine
end

section
/-!
The language of event traces (42_measurement_fsm.md R159, 43_session_ops.md R173, R190): every move's events are the ones an
observer allows, and they lead to a phase that fits the state the move ends in.
-/

namespace Sys2Proof.Machine

/-! ### The automaton's answers -/

/-- The end of an operation after a failing answer (60_exceptions.md R205). -/
theorem nextPhase_endFailed (k : Straps) (c : OpCode) :
    nextPhase k (endFailed c) (.done c .ioError) = some (.rest .failed) := by
  simp [endFailed, nextPhase, expectDone]

/-- A read is answered badly by `IoError` or by another length than asked for, compared on the port's four bits. -/
theorem readOk_toNat_eq_false_iff (n : BitVec 4) {p : Pins} :
    readOk n.toNat p = false ↔ p.rspErr = true ∨ p.rspLen ≠ n := by
  rw [readOk_eq_false_iff, Ne, BitVec.toNat_inj]

/-- A read answered badly ends the operation (20_memory.md R69). -/
theorem expectReadAnswer_of_not_readOk {p : Pins} {n : BitVec 4} (c : OpCode) (q : Byte → Phase)
    (hf : readOk n.toNat p = false) :
    expectReadAnswer c n q (.rsp .read (portAnswer .read p)) = some (endFailed c) := by
  cases he : p.rspErr
  · have hl : p.rspLen ≠ n := by simpa [he] using (readOk_toNat_eq_false_iff n).1 hf
    simp [expectReadAnswer, portAnswer, he, afterRead, hl]
  · simp [expectReadAnswer, portAnswer, he, afterRead]

/-- A write answered with `IoError` ends the operation. -/
theorem expectWriteAnswer_ioError {p : Pins} (c : OpCode) (q : Phase) (he : p.rspErr = true) :
    expectWriteAnswer c q (.rsp .write (portAnswer .write p)) = some (endFailed c) := by
  simp [expectWriteAnswer, portAnswer, he]

/-- A status byte of the poll with bit 7 clear. -/
theorem afterPollByte_clear {b : Byte} (k : Straps) (c : OpCode) (h : Handle) (n : Nat) (hb : busyFlag b = false) :
    afterPollByte k c h n b = .clear c h := by
  simp [afterPollByte, hb]

/-- The core times out on the read the observer counts as the last one of the bound (42_measurement_fsm.md R154, R155). -/
theorem afterPollByte_timeout {s : State} {b : Byte} {n : Nat} (c : OpCode) (h : Handle) (hb : busyFlag b = true)
    (hn : PollCountFits s n) (h0 : s.cfgPollLimit ≠ 0#16) (hc : s.pollCnt + 1#16 = s.cfgPollLimit) :
    afterPollByte (sampledStraps s) c h n b = .ending c .timeout (.ready h) := by
  obtain ⟨hcnt, hlt⟩ := hn h0
  have hlast : n + 1 = s.cfgPollLimit.toNat := by rw [← hc, pollCnt_succ_toNat (hcnt ▸ hlt), hcnt]
  simp [afterPollByte, hb, sampledStraps, h0, hlast]

/-- The core polls on when the observer counts a read before the last one of the bound, or there is no bound. -/
theorem afterPollByte_busy {s : State} {b : Byte} {n : Nat} (c : OpCode) (h : Handle) (hb : busyFlag b = true)
    (hn : PollCountFits s n) (hc : s.cfgPollLimit = 0#16 ∨ s.pollCnt + 1#16 ≠ s.cfgPollLimit) :
    afterPollByte (sampledStraps s) c h n b = .pollDue c h (n + 1) := by
  have hnot : ¬ (s.cfgPollLimit ≠ 0#16 ∧ n + 1 = s.cfgPollLimit.toNat) := by
    rintro ⟨h0, hlast⟩
    obtain ⟨hcnt, hlt⟩ := hn h0
    refine hc.resolve_left h0 (BitVec.eq_of_toNat_eq ?_)
    rw [pollCnt_succ_toNat (hcnt ▸ hlt), hcnt, hlast]
  simp [afterPollByte, hb, sampledStraps, hnot]

/-- The poll counter goes on agreeing with the observer's count when the poll goes on. -/
theorem PollCountFits.succ {s u : State} {n : Nat} (hn : PollCountFits s n) (hlim : u.cfgPollLimit = s.cfgPollLimit)
    (hcnt : u.pollCnt = (countPoll s).pollCnt) (hc : s.cfgPollLimit = 0#16 ∨ s.pollCnt + 1#16 ≠ s.cfgPollLimit) :
    PollCountFits u (n + 1) := by
  intro h0
  rw [hlim] at h0 ⊢
  obtain ⟨rfl, hroom⟩ := hn h0
  have hsucc : u.pollCnt.toNat = s.pollCnt.toNat + 1 := by simp [hcnt, h0, pollCnt_succ_toNat hroom]
  exact ⟨hsucc, hsucc ▸ hcnt ▸ countPoll_lt hroom h0 (hc.resolve_left h0)⟩

/-! ### The moves -/

/-- From every phase that fits `s`, the observer follows the events to a phase that fits `u`. -/
def EventsLead (s u : State) (es : List Event) : Prop :=
  ∀ p, phaseFits s p → ∃ q, runPhases (sampledStraps s) p es = some q ∧ phaseFits u q

/-- The trace goes on following the rules when the events of a step lead on. -/
theorem TraceFollowsRules.append {s u : State} {es : List Event} (h : TraceFollowsRules s)
    (htr : u.trace = s.trace ++ es) (hk : sampledStraps u = sampledStraps s) (hes : EventsLead s u es) :
    TraceFollowsRules u := by
  obtain ⟨p, hrun, hfit⟩ := h
  obtain ⟨q, hq, hfit'⟩ := hes p hfit
  exact ⟨q, by rw [hk, htr, runPhases_append, hrun, Option.bind_some, hq], hfit'⟩

/-- The event of an acceptance, from IDLE with the session as the observer knows it. -/
theorem eventsLead_accept {s u : State} {v : View} {c : OpCode} (hq : s.seq = .idle) (hv : idleView s = some v)
    (hu : phaseFits u (.accepted c v)) : EventsLead s u [.accept c] := by
  intro p hfit
  simp only [phaseFits, hq, hv, Option.some.injEq] at hfit
  obtain ⟨v, rfl, rfl⟩ := hfit
  exact ⟨_, by simp [nextPhase], hu⟩

/-- The events of an issue step: the request is the one the observer waits for. -/
theorem eventsLead_issue {s : State} {r : TrReq} (hr : seqRequest s = some r) (hp : s.trPending = false) :
    EventsLead s { s with trPending := true, trace := s.trace ++ [reqEvent r] } [reqEvent r] := by
  intro p hfit
  cases hq : s.seq <;> simp only [seqRequest, phaseFits, hq, hp, Option.some.injEq, reduceCtorEq] at hr hfit <;> subst hr
  case initOpen =>
    obtain ⟨rfl, hc⟩ := hfit
    exact ⟨.opening, by simp [reqEvent, nextPhase, afterAccept, sampledStraps, devAddr], rfl, hc⟩
  case initStatus =>
    obtain ⟨rfl, hc⟩ := hfit
    exact ⟨.checking s.handle, by simp [reqEvent, nextPhase, expectRead], rfl, hc⟩
  case initWrite =>
    obtain ⟨rfl, hc⟩ := hfit
    exact ⟨.arming s.handle, by simp [reqEvent, nextPhase, cmdBytes], rfl, hc⟩
  case measTrigger =>
    obtain ⟨rfl, hc⟩ := hfit
    exact ⟨.triggering s.curOp s.handle, by simp [reqEvent, nextPhase, afterAccept, cmdBytes, hc], rfl⟩
  case measPoll =>
    obtain ⟨n, rfl, hn⟩ := hfit
    exact ⟨.polling s.curOp s.handle n, by simp [reqEvent, nextPhase, expectRead], n, rfl, hn⟩
  case measFrame =>
    subst hfit
    exact ⟨.fetching s.curOp s.handle, by simp [reqEvent, nextPhase, expectRead, frameLen], rfl⟩
  case rstWrite =>
    obtain ⟨rfl, hc, hs⟩ := hfit
    exact ⟨.resetting s.handle, by simp [reqEvent, nextPhase, afterAccept, cmdBytes], rfl, hc, hs⟩

/-- The observer's phase while a request is outstanding: a failing answer to it ends the operation in progress. -/
theorem nextPhase_of_answerFails {s : State} {r : TrReq} {p : Phase} (hr : seqRequest s = some r)
    (hp : s.trPending = true) (hf : answerFails s = true) (hfit : phaseFits s p) :
    nextPhase (sampledStraps s) p (.rsp (reqKind r) (portAnswer (reqKind r) s.pins)) = some (endFailed s.curOp) := by
  cases hq : s.seq <;>
    simp only [seqRequest, phaseFits, answerFails, hq, hp, Option.some.injEq, reduceCtorEq, Bool.not_eq_true']
      at hr hfit hf <;>
    subst hr
  case initOpen =>
    obtain ⟨rfl, hc⟩ := hfit
    simp [nextPhase, reqKind, expectOpenAnswer, portAnswer, hf, afterOpen, hc]
  case initStatus =>
    obtain ⟨rfl, hc⟩ := hfit
    simp [nextPhase, reqKind, hc, expectReadAnswer_of_not_readOk (n := 1#4) _ _ hf]
  case initWrite =>
    obtain ⟨rfl, hc⟩ := hfit
    exact hc ▸ expectWriteAnswer_ioError _ _ hf
  case measTrigger =>
    subst hfit
    exact expectWriteAnswer_ioError _ _ hf
  case measPoll =>
    obtain ⟨n, rfl, -⟩ := hfit
    simp [nextPhase, reqKind, expectReadAnswer_of_not_readOk (n := 1#4) _ _ hf]
  case measFrame =>
    subst hfit
    simp [nextPhase, reqKind, expectReadAnswer_of_not_readOk (n := 7#4) _ _ hf]
  case rstWrite =>
    obtain ⟨rfl, hc, -⟩ := hfit
    exact hc ▸ expectWriteAnswer_ioError _ _ hf

/-- The events of a write answered `Ok`, whose delay starts. -/
theorem eventsLead_delayStarted {s : State} {q : Seq} {ms : Nat}
    (hq : (s.seq = .initWrite ∧ q = .initDelay ∧ ms = 10) ∨ (s.seq = .measTrigger ∧ q = .measSettle ∧ ms = 80) ∨
      (s.seq = .rstWrite ∧ q = .rstDelay ∧ ms = 20)) (hp : s.trPending = true) :
    EventsLead s { s with trPending := false, seq := q, dlyCnt := ms * s.ticksPerMs.val,
                          trace := s.trace ++ [.rsp .write .okWrite, .delay ms] } [.rsp .write .okWrite, .delay ms] := by
  intro p hfit
  obtain ⟨hq, rfl, rfl⟩ | ⟨hq, rfl, rfl⟩ | ⟨hq, rfl, rfl⟩ := hq <;> simp only [phaseFits, hq, hp] at hfit
  · obtain ⟨rfl, hc⟩ := hfit
    exact ⟨.ending codeInit .ok (.ready s.handle), by simp [nextPhase, expectWriteAnswer, expectDelay], rfl, hc⟩
  · subst hfit
    exact ⟨.pollDue s.curOp s.handle 0, by simp [nextPhase, expectWriteAnswer, expectDelay], rfl⟩
  · obtain ⟨rfl, hc⟩ := hfit
    exact ⟨.ending codeSoftReset .ok (.ready s.handle), by simp [nextPhase, expectWriteAnswer, expectDelay], rfl, hc⟩

/-- The events of a move lead on: the observer allows them, and then stands where the machine stands. -/
theorem Move.eventsLead {s u : State} (hm : Move s u) : ∃ es, u.trace = s.trace ++ es ∧ EventsLead s u es := by
  cases hm with
  | idleWait | wait | delayWait | tick => exact ⟨[], by simp, fun p hfit => ⟨p, rfl, hfit⟩⟩
  | refused hq _ ha =>
    refine ⟨_, rfl, fun p hfit => ?_⟩
    simp only [phaseFits, hq] at hfit
    obtain ⟨v, hv, rfl⟩ := hfit
    have hruns : v.runs s.pins.opCode = false := (View.runs_eq_admits hv _).trans ha
    exact ⟨.rest v, by simp [nextPhase, afterAccept, hruns], v, hv, rfl⟩
  | initAccepted hq _ _ hs => exact ⟨_, rfl, eventsLead_accept (v := .fresh) hq (by simp [idleView, hs]) ⟨rfl, rfl⟩⟩
  | measureAccepted hq _ hc hs => exact ⟨_, rfl, eventsLead_accept hq (by simp [idleView, hs]) ⟨rfl, hc⟩⟩
  | resetAccepted hq _ _ hs => exact ⟨_, rfl, eventsLead_accept hq (by simp [idleView, hs]) ⟨rfl, rfl, hs⟩⟩
  | issue r hr hp => exact ⟨_, rfl, eventsLead_issue hr hp⟩
  | ioError r hr hp _ hf =>
    refine ⟨_, rfl, fun p hfit => ⟨.rest .failed, ?_, .failed, rfl, rfl⟩⟩
    simp [nextPhase_of_answerFails hr hp hf hfit, nextPhase_endFailed]
  | opened hq hp =>
    refine ⟨_, rfl, fun p hfit => ?_⟩
    simp only [phaseFits, hq, hp] at hfit
    obtain ⟨rfl, hc⟩ := hfit
    exact ⟨.opened s.pins.rspHandle, by simp [nextPhase, expectOpenAnswer, afterOpen], rfl, hc⟩
  | calibrated hq hp _ _ _ hb =>
    refine ⟨_, rfl, fun p hfit => ?_⟩
    simp only [phaseFits, hq, hp] at hfit
    obtain ⟨rfl, hc⟩ := hfit
    exact ⟨.rest (.ready s.handle), by simp [nextPhase, expectReadAnswer, afterRead, hb, expectDone, hc], _, rfl, rfl⟩
  | uncalibrated hq hp _ _ _ hb =>
    refine ⟨_, rfl, fun p hfit => ?_⟩
    simp only [phaseFits, hq, hp] at hfit
    obtain ⟨rfl, hc⟩ := hfit
    exact ⟨.uncalibrated s.handle, by simp [nextPhase, expectReadAnswer, afterRead, hb], rfl, hc⟩
  | delayStarted q ms hq hp => exact ⟨_, rfl, eventsLead_delayStarted hq hp⟩
  | pollClear hq hp _ _ _ hb =>
    refine ⟨_, rfl, fun p hfit => ?_⟩
    simp only [phaseFits, hq, hp] at hfit
    obtain ⟨n, rfl, -⟩ := hfit
    exact ⟨.clear s.curOp s.handle, by simp [nextPhase, expectReadAnswer, afterRead, afterPollByte_clear, hb], rfl⟩
  | pollTimeout hq hp _ _ _ hb h0 hc =>
    refine ⟨_, rfl, fun p hfit => ?_⟩
    simp only [phaseFits, hq, hp] at hfit
    obtain ⟨n, rfl, hn⟩ := hfit
    refine ⟨.rest (.ready s.handle), ?_, _, rfl, rfl⟩
    simp [nextPhase, expectReadAnswer, afterRead, afterPollByte_timeout _ _ hb hn h0 hc, expectDone]
  | pollBusy hq hp _ _ _ hb hc =>
    refine ⟨_, rfl, fun p hfit => ?_⟩
    simp only [phaseFits, hq, hp] at hfit
    obtain ⟨n, rfl, hn⟩ := hfit
    refine ⟨.pollDue s.curOp s.handle (n + 1), ?_, n + 1, rfl, hn.succ rfl rfl hc⟩
    simp [nextPhase, expectReadAnswer, afterRead, afterPollByte_busy _ _ hb hn hc]
  | frameRead hq hp =>
    refine ⟨_, rfl, fun p hfit => ?_⟩
    simp only [phaseFits, hq, hp] at hfit
    subst hfit
    exact ⟨.rest (.ready s.handle), by simp [nextPhase, expectReadAnswer, afterRead, expectDone], _, rfl, rfl⟩
  | initExpired hq =>
    refine ⟨_, rfl, fun p hfit => ?_⟩
    simp only [phaseFits, hq] at hfit
    obtain ⟨rfl, hc⟩ := hfit
    exact ⟨.rest (.ready s.handle), by simp [nextPhase, expectDone, hc], _, rfl, rfl⟩
  | settleExpired hq =>
    refine ⟨[], by simp, fun p hfit => ?_⟩
    simp only [phaseFits, hq] at hfit
    subst hfit
    refine ⟨.pollDue s.curOp s.handle 0, rfl, 0, rfl, fun h0 => ⟨rfl, ?_⟩⟩
    simpa [Nat.pos_iff_ne_zero, BitVec.toNat_eq] using h0
  | resetExpired hq =>
    refine ⟨_, rfl, fun p hfit => ?_⟩
    simp only [phaseFits, hq] at hfit
    obtain ⟨rfl, hc, hs⟩ := hfit
    exact ⟨.rest (.ready s.handle), by simp [nextPhase, expectDone, hc], _, by simp [idleView, hs], rfl⟩

/-- Taking the next inputs leaves the trace and where it stands. -/
theorem traceFollowsRules_sampleInputs {s : State} (h : TraceFollowsRules s) : TraceFollowsRules (sampleInputs s) := by
  simpa [TraceFollowsRules] using h

/-- Settles O41: a hardware reset starts the trace anew, and the events of every move lead the observer on. -/
theorem stepKeepsTraceRules : Obligations.StepKeepsTraceRules := fun _ _ hs =>
  step_keeps traceFollowsRules_hardwareReset (fun _ => traceFollowsRules_sampleInputs) fun _ hm =>
    have ⟨_, htr, hlead⟩ := hm.eventsLead
    hs.append htr hm.straps.1 hlead

end Sys2Proof.Machine
end

section
/-!
The steps of the measurement (42_measurement_fsm.md R150 to R157) in the states they stand in, each with its whole next
state, and what ends it with `Timeout` (R155).
-/

namespace Sys2Proof.Machine

/-! ### MEAS_TRIGGER (R151) -/

theorem exec_cmdTrigger_measTrigger {s : State} (hq : s.seq = .measTrigger) :
    exec .cmdTrigger s = .next (transact answerTrigger s) := by
  simp [exec, execCmdTrigger, hq]

/-- The answer `Ok` to a write, recorded, and the delay that it starts, as one state. -/
theorem startDelay_receiveAnswer {s : State} (q : Seq) (ms : Nat) (he : s.pins.rspErr = false) :
    startDelay q ms (receiveAnswer .write s) = Spec.delayStarted q ms s := by
  simp [startDelay, receiveAnswer, emit, portAnswer, he, Spec.delayStarted]

theorem answerTrigger_ioError {s : State} (he : s.pins.rspErr = true) :
    answerTrigger s = Spec.ioErrorRaised .write s := by
  simp [answerTrigger, he, raiseOutcome_ioError_receiveAnswer]

theorem answerTrigger_ok {s : State} (he : s.pins.rspErr = false) :
    answerTrigger s = Spec.delayStarted .measSettle 80 s := by
  simp [answerTrigger, he, startDelay_receiveAnswer, settleMs]

/-- Settles O22: the write and the command it carries run the same transaction, which takes the answer. -/
theorem triggerAnswered : Obligations.TriggerAnswered := by
  intro s hq hp hv
  rw [exec_cmdTrigger_measTrigger hq, exec_trWrite3_measTrigger hq, transact_answer hp hv]
  exact ⟨fun he => by simp [answerTrigger_ioError he], fun he => by simp [answerTrigger_ok he]⟩

/-! ### MEAS_SETTLE (R152) -/

theorem delayStep_of_zero {expire : State → State} {s : State} (h0 : s.dlyCnt = 0) : delayStep expire s = expire s := by
  simp [delayStep, h0]

theorem delayStep_of_tick {expire : State → State} {s : State} (h0 : 0 < s.dlyCnt) (ht : s.pins.tick = true) :
    delayStep expire s = { s with dlyCnt := s.dlyCnt - 1 } := by
  simp [delayStep, h0.ne', ht]

theorem delayStep_of_no_tick {expire : State → State} {s : State} (h0 : 0 < s.dlyCnt) (ht : s.pins.tick = false) :
    delayStep expire s = s := by
  simp [delayStep, h0.ne', ht]

/-- Settles O25: the step is the delay's, with the poll's entry for its end. -/
theorem settleStep : Obligations.SettleStep := by
  intro s hq hr
  have hstep : step s = .next (sampleInputs (delayStep expireSettle s)) := by simp [step_run hr, runStep, hq]
  rw [hstep]
  exact ⟨fun h0 ht => by rw [delayStep_of_tick h0 ht], fun h0 ht => by rw [delayStep_of_no_tick h0 ht],
    fun h0 => by rw [delayStep_of_zero h0]; rfl⟩

/-! ### MEAS_POLL (R154, R155) -/

theorem answerPoll_of_bad {s : State} (h : s.pins.rspErr = true ∨ s.pins.rspLen ≠ 1#4) :
    answerPoll s = Spec.ioErrorRaised .read s := by
  have hbad : readOk 1 s.pins = false := (readOk_toNat_eq_false_iff 1#4).2 h
  simp [answerPoll, hbad, raiseOutcome_ioError_receiveAnswer]

/-- A good answer is stored and counted, and then its bit 7 and the bound decide. -/
theorem answerPoll_of_good {s : State} (he : s.pins.rspErr = false) (hl : s.pins.rspLen = 1#4) :
    answerPoll s = pollStatus (answerByte s.pins 0) (Spec.statusPolled s) := by
  have hstored : countPoll (storeStatus (answerByte s.pins 0) (receiveAnswer .read s)) = Spec.statusPolled s := by
    simp [countPoll, storeStatus, receiveAnswer, emit, portAnswer_read1 he hl, Spec.statusPolled]
  simp [answerPoll, readOk_one.2 ⟨he, hl⟩, hstored]

/-- The bound is reached exactly by the count that equals a bound other than 0. -/
theorem pollExhausted_iff {limit count : PollCount} :
    pollExhausted limit count = true ↔ limit ≠ 0#16 ∧ count = limit := by
  simp [pollExhausted]

/-- The read just counted reaches the bound. -/
theorem pollExhausted_statusPolled {s : State} :
    pollExhausted (Spec.statusPolled s).cfgPollLimit (Spec.statusPolled s).pollCnt = true ↔
      s.cfgPollLimit ≠ 0#16 ∧ s.pollCnt + 1#16 = s.cfgPollLimit := by
  rw [pollExhausted_iff]
  refine and_congr_right fun (h0 : s.cfgPollLimit ≠ 0#16) => ?_
  simp [Spec.statusPolled, h0]

theorem pollStatus_clear {b : Byte} {s : State} (hb : busyFlag b = false) :
    pollStatus b s = { s with seq := .measFrame } := by
  simp [pollStatus, hb]

theorem pollStatus_timeout {b : Byte} {s : State} (hb : busyFlag b = true)
    (hex : pollExhausted s.cfgPollLimit s.pollCnt = true) : pollStatus b s = raiseOutcome .timeout s := by
  simp [pollStatus, hb, hex]

theorem pollStatus_busy {b : Byte} {s : State} (hb : busyFlag b = true)
    (hex : ¬ pollExhausted s.cfgPollLimit s.pollCnt = true) : pollStatus b s = { s with seq := .measPoll } := by
  simp [pollStatus, hb, hex]

/-- Settles O26: the branches of the poll's answer, the clear test before the bound. -/
theorem pollAnswered : Obligations.PollAnswered := by
  intro s hq hp hv
  rw [exec_trRead1_measPoll hq, transact_answer hp hv]
  refine ⟨fun hbad => by rw [answerPoll_of_bad hbad], fun he hl => ?_⟩
  rw [answerPoll_of_good he hl]
  refine ⟨fun hb => by rw [pollStatus_clear hb], fun hb h0 hc => ?_, fun hb hc => ?_⟩
  · rw [pollStatus_timeout hb (pollExhausted_statusPolled.2 ⟨h0, hc⟩)]
    simp [raiseOutcome, complete, emit, raisedStatus, raisedSession, Spec.statusPolled]
  · have hroom : ¬ (s.cfgPollLimit ≠ 0#16 ∧ s.pollCnt + 1#16 = s.cfgPollLimit) := fun ⟨h0, heq⟩ =>
      hc.resolve_left h0 heq
    rw [pollStatus_busy hb (mt pollExhausted_statusPolled.1 hroom)]
    simp [Spec.statusPolled, hq]

/-! ### MEAS_FRAME (R156, R157) -/

theorem wantsTemp_iff {op : OpCode} : wantsTemp op = true ↔ op = 2#3 ∨ op = 4#3 := by
  simp [wantsTemp, codeGetTemperature, codeGetAll]

theorem wantsHum_iff {op : OpCode} : wantsHum op = true ↔ op = 3#3 ∨ op = 4#3 := by
  simp [wantsHum, codeGetHumidity, codeGetAll]

theorem answerFrameRead_of_bad {s : State} (h : s.pins.rspErr = true ∨ s.pins.rspLen ≠ 7#4) :
    answerFrameRead s = Spec.ioErrorRaised .read s := by
  have hbad : readOk 7 s.pins = false := (readOk_toNat_eq_false_iff 7#4).2 h
  simp [answerFrameRead, frameLen, hbad, raiseOutcome_ioError_receiveAnswer]

theorem answerFrameRead_of_good {s : State} (he : s.pins.rspErr = false) (hl : s.pins.rspLen = 7#4) :
    answerFrameRead s = Spec.measurementCompleted s := by
  simp [answerFrameRead, frameLen, readOk_seven.2 ⟨he, hl⟩, finishMeasurement, storeResults, complete, storeFrame,
    receiveAnswer, emit, portAnswer_read7 he hl, wantsTemp_iff, wantsHum_iff, Spec.measurementCompleted]

/-- Settles O27: the issue step of the frame read, and its answer. -/
theorem frameReadCompletes : Obligations.FrameReadCompletes := by
  refine ⟨fun s hq hp => ?_, fun s hq hp hv => ?_⟩
  · exact exec_issue (.read s.handle frameLen) hp (exec_trRead7_measFrame hq) (by simp [seqRequest, hq])
  · rw [exec_trRead7_measFrame hq, transact_answer hp hv]
    exact ⟨fun hbad => by rw [answerFrameRead_of_bad hbad], fun he hl => by rw [answerFrameRead_of_good he hl]⟩

/-! ### What ends a measurement with `Timeout` (R155) -/

/-- The answer to a status read of the poll is a busy byte, and the read is the last one of the bound. -/
def timesOut (s : State) : Prop :=
  s.seq = .measPoll ∧ s.trPending = true ∧ s.pins.rspValid = true ∧ s.pins.rspErr = false ∧ s.pins.rspLen = 1#4 ∧
    (answerByte s.pins 0).getLsbD 7 = true ∧ s.cfgPollLimit ≠ 0#16 ∧ s.pollCnt + 1#16 = s.cfgPollLimit

/-- Such an answer is stored and counted, and raises `Timeout`. -/
theorem runStep_of_timesOut {s : State} (h : timesOut s) : runStep s = raiseOutcome .timeout (Spec.statusPolled s) := by
  obtain ⟨hq, hp, hv, he, hl, hb, h0, hc⟩ := h
  simp only [runStep, hq, transact_answer hp hv, answerPoll_of_good he hl]
  exact pollStatus_timeout hb (pollExhausted_statusPolled.2 ⟨h0, hc⟩)

/-- No other move's last event is a completion with `Timeout`. -/
theorem Move.timesOut_of_trace {s u : State} {c : OpCode} {pre : List Event} (hm : Move s u)
    (h : u.trace = s.trace ++ pre ++ [.done c .timeout]) : timesOut s := by
  have hlast := congrArg List.getLast? h
  cases hm with
  | pollTimeout hq hp hv he hl hb h0 hc => exact ⟨hq, hp, hv, he, hl, hb, h0, hc⟩
  | idleWait | wait | tick | delayWait | settleExpired => simp at h
  | issue r => cases r <;> simp [reqEvent] at hlast
  | _ => simp at hlast

/-- Settles O46: only the poll's answer at the bound records the completion, and that step raises `Timeout`. -/
theorem timeoutCause : Obligations.TimeoutCause := by
  intro s t hr h
  obtain ⟨hr', -⟩ | ⟨-, u, hm, rfl⟩ := step_moves h
  · simp [hr] at hr'
  have hcause : (∃ pre, (sampleInputs u).trace = s.trace ++ pre ++ [.done s.curOp .timeout]) → timesOut s :=
    fun ⟨_, htr⟩ => hm.timesOut_of_trace (by simpa using htr)
  have hstep (hto : timesOut s) : sampleInputs u = sampleInputs (raiseOutcome .timeout (Spec.statusPolled s)) := by
    rw [← runStep_of_timesOut hto]
    exact Host.Outcome.next.inj (h.symm.trans (step_run hr))
  refine ⟨⟨hcause, fun hto => ⟨[.rsp .read (.okBytes 1#4 [answerByte s.pins 0])], ?_⟩⟩, fun htr => ?_⟩
  · simp [hstep hto, raisedStatus, Spec.statusPolled]
  · simp [hstep (hcause htr), raisedSession, raisedStatus, Spec.statusPolled]

end Sys2Proof.Machine
end

section
/-!
The acceptance of host operations (43_session_ops.md R170 to R173, R180, R190, R192), each with its whole next state.
-/

namespace Sys2Proof.Machine

/-! ### Refused operations -/

/-- A refusal, as one state: in IDLE `seq` stays. -/
theorem refuse_of_idle {s : State} (c : OpCode) (hq : s.seq = .idle) :
    refuse c s = { s with curOp := c, rspValid := true, rspStatus := .invalid, trPending := false,
                          trace := s.trace ++ [.accept c, .done c .invalid] } := by
  simp [refuse, complete, accept, emit, hq]

theorem exec_decodeHostop_refused {c : OpCode} {s : State} (hq : s.seq = .idle) (ha : admits c s.sessState = false) :
    exec (decodeHostop c) s =
      .next { s with curOp := c, rspValid := true, rspStatus := .invalid, trPending := false,
                     trace := s.trace ++ [.accept c, .done c .invalid] } := by
  rw [exec_decodeHostop, hostOp_refuse hq ha, refuse_of_idle c hq]

/-- The reserved codes run in no session state (43_session_ops.md R192). -/
theorem admits_reserved {c : OpCode} (hc : c = 0#3 ∨ c = 6#3 ∨ c = 7#3) (ss : SessState) : admits c ss = false := by
  rcases hc with rfl | rfl | rfl <;> cases ss <;> rfl

/-- Settles O12: the reserved codes run in no session state, so each is refused. -/
theorem reservedCodesRefuse : Obligations.ReservedCodesRefuse := fun s hq =>
  ⟨exec_decodeHostop_refused (c := 0#3) hq (admits_reserved (by simp) _),
    exec_decodeHostop_refused (c := 6#3) hq (admits_reserved (by simp) _),
    exec_decodeHostop_refused (c := 7#3) hq (admits_reserved (by simp) _)⟩

/-! ### Accepted operations -/

theorem exec_decodeHostop_admitted {c : OpCode} {s : State} (hq : s.seq = .idle) (ha : admits c s.sessState = true) :
    exec (decodeHostop c) s = .next (startOf c (accept c s)) := by
  rw [exec_decodeHostop, hostOp_run hq ha]

/-- Every measurement operation starts the same way. -/
theorem startOf_of_isGet {c : OpCode} (hc : isGet c = true) : startOf c = startMeasurement := by
  rcases isGet_iff.1 hc with rfl | rfl | rfl <;> rfl

theorem admits_init : admits codeInit .uninitialized = true := rfl

theorem admits_softReset : admits codeSoftReset .ready = true := rfl

theorem admits_of_isGet {c : OpCode} (hc : isGet c = true) : admits c .ready = true := by
  rcases isGet_iff.1 hc with rfl | rfl | rfl <;> rfl

theorem exec_init_accepted {s : State} (hq : s.seq = .idle) (hs : s.sessState = .uninitialized) :
    exec (decodeHostop codeInit) s =
      .next { s with curOp := codeInit, rspValid := false, seq := .initOpen, trPending := false,
                     trace := s.trace ++ [.accept codeInit] } :=
  exec_decodeHostop_admitted hq (hs ▸ admits_init)

theorem exec_get_accepted {c : OpCode} {s : State} (hc : isGet c = true) (hq : s.seq = .idle)
    (hs : s.sessState = .ready) : exec (decodeHostop c) s = .next (Spec.measurementStarted c s) := by
  rw [exec_decodeHostop_admitted hq (hs ▸ admits_of_isGet hc), startOf_of_isGet hc]
  rfl

theorem exec_softReset_accepted {s : State} (hq : s.seq = .idle) (hs : s.sessState = .ready) :
    exec (decodeHostop codeSoftReset) s =
      .next { s with curOp := codeSoftReset, rspValid := false, seq := .rstWrite, trPending := false,
                     trace := s.trace ++ [.accept codeSoftReset] } :=
  exec_decodeHostop_admitted hq (hs ▸ admits_softReset)

/-- Settles O13: in `Uninitialized` the table admits `OP_INIT`, which enters `INIT_OPEN`. -/
theorem initStarts : Obligations.InitStarts := fun _ hq hs => exec_init_accepted hq hs

/-- Settles O14: the three measurement operations start alike. -/
theorem measurementsStart : Obligations.MeasurementsStart := fun _ hq hs =>
  ⟨exec_get_accepted (c := codeGetTemperature) rfl hq hs, exec_get_accepted (c := codeGetHumidity) rfl hq hs,
    exec_get_accepted (c := codeGetAll) rfl hq hs⟩

/-- Settles O15: in `Ready` the table admits `OP_SOFT_RESET`, which enters `RST_WRITE`. -/
theorem softResetStarts : Obligations.SoftResetStarts := fun _ hq hs => exec_softReset_accepted hq hs

/-! ### The acceptance table (43_session_ops.md R172) -/

/-- The core admits an operation exactly in the cells "run" of the table. -/
theorem admits_iff_runsIn {c : OpCode} {ss : SessState} : admits c ss = true ↔ Spec.runsIn c ss := by
  cases ss <;>
    simp [admits, Spec.runsIn, codeInit, codeGetTemperature, codeGetHumidity, codeGetAll, codeSoftReset, or_assoc]

/-- Settles O11: a cell "run" is `init`, a measurement or `soft_reset` in its session state, and each of them starts; in
every other cell the core refuses. -/
theorem acceptanceTable : Obligations.AcceptanceTable := by
  refine fun c s hq _ => ⟨fun hrun => ?_, fun hno => ?_⟩
  · obtain ⟨rfl, hs⟩ | ⟨hc, hs⟩ | ⟨rfl, hs⟩ := admits_cases (admits_iff_runsIn.2 hrun)
    · exact ⟨_, exec_init_accepted hq hs, rfl, rfl, rfl, rfl⟩
    · refine ⟨_, exec_get_accepted hc hq hs, rfl, rfl, rfl, ?_⟩
      rcases isGet_iff.1 hc with rfl | rfl | rfl <;> rfl
    · exact ⟨_, exec_softReset_accepted hq hs, rfl, rfl, rfl, rfl⟩
  · exact exec_decodeHostop_refused hq (Bool.eq_false_iff.2 (mt admits_iff_runsIn.1 hno))

end Sys2Proof.Machine
end

section
/-!
The single steps of `init` and `soft_reset` (43_session_ops.md R175 to R178, R191), each with its whole next state.
-/

namespace Sys2Proof.Machine

/-! ### The decoded instruction -/

/-- Settles O30: the word decodes, so the step is its instruction's; without a word it is the timer's. -/
theorem stepRunsDecoded : Obligations.StepRunsDecoded := by
  refine ⟨fun s e i hr hf hd => ?_, fun _ hr hf => step_of_no_word hr hf⟩
  rw [step_of_word hr hf hd]
  cases exec i s <;> rfl

/-! ### INIT_OPEN (R175) -/

theorem answerOpen_ioError {s : State} (he : s.pins.rspErr = true) : answerOpen s = Spec.ioErrorRaised .open s := by
  simp [answerOpen, he, raiseOutcome_ioError_receiveAnswer]

theorem answerOpen_ok {s : State} (he : s.pins.rspErr = false) :
    answerOpen s = { s with trPending := false, handle := s.pins.rspHandle, handleValid := true, seq := .initStatus,
                            trace := s.trace ++ [.rsp .open (.okHandle s.pins.rspHandle)] } := by
  simp [answerOpen, he, receiveAnswer, emit, portAnswer]

/-- Settles O19: the transaction takes the answer, and `IoError` or `Ok` decides. -/
theorem openAnswered : Obligations.OpenAnswered := by
  intro s hq hp hv
  rw [exec_trOpen_initOpen hq, transact_answer hp hv]
  exact ⟨fun he => by rw [answerOpen_ioError he], fun he => by rw [answerOpen_ok he]⟩

/-! ### INIT_STATUS (R176) -/

theorem answerInitStatus_of_bad {s : State} (h : s.pins.rspErr = true ∨ s.pins.rspLen ≠ 1#4) :
    answerInitStatus s = Spec.ioErrorRaised .read s := by
  have hbad : readOk 1 s.pins = false := (readOk_toNat_eq_false_iff 1#4).2 h
  simp [answerInitStatus, hbad, raiseOutcome_ioError_receiveAnswer]

/-- A good answer is stored, and then its bit 3 decides. -/
theorem answerInitStatus_of_good {s : State} (he : s.pins.rspErr = false) (hl : s.pins.rspLen = 1#4) :
    answerInitStatus s = initStatusByte (answerByte s.pins 0)
      { s with trPending := false, frame := { s.frame with b0 := answerByte s.pins 0 }, frameFull := false,
               trace := s.trace ++ [.rsp .read (.okBytes 1#4 [answerByte s.pins 0])] } := by
  simp [answerInitStatus, readOk_one.2 ⟨he, hl⟩, storeStatus, receiveAnswer, emit, portAnswer_read1 he hl]

theorem answerInitStatus_calibrated {s : State} (he : s.pins.rspErr = false) (hl : s.pins.rspLen = 1#4)
    (hb : calFlag (answerByte s.pins 0) = true) :
    answerInitStatus s =
      { s with trPending := false, frame := { s.frame with b0 := answerByte s.pins 0 }, frameFull := false,
               sessState := .ready, seq := .idle, rspStatus := .ok, rspValid := true,
               trace := s.trace ++ [.rsp .read (.okBytes 1#4 [answerByte s.pins 0]), .done s.curOp .ok] } := by
  simp [answerInitStatus_of_good he hl, initStatusByte, hb, finishInit, complete, emit]

theorem answerInitStatus_uncalibrated {s : State} (he : s.pins.rspErr = false) (hl : s.pins.rspLen = 1#4)
    (hb : calFlag (answerByte s.pins 0) = false) :
    answerInitStatus s =
      { s with trPending := false, frame := { s.frame with b0 := answerByte s.pins 0 }, frameFull := false,
               seq := .initWrite, trace := s.trace ++ [.rsp .read (.okBytes 1#4 [answerByte s.pins 0])] } := by
  simp [answerInitStatus_of_good he hl, initStatusByte, hb]

/-- Settles O20: the issue step of the status read, and its answer. -/
theorem initStatusRead : Obligations.InitStatusRead := by
  refine ⟨fun s hq hp => ?_, fun s hq hp hv => ?_⟩
  · exact exec_issue (.read s.handle 1) hp (exec_trRead1_initStatus hq) (by simp [seqRequest, hq])
  · rw [exec_trRead1_initStatus hq, transact_answer hp hv]
    exact ⟨fun hbad => by rw [answerInitStatus_of_bad hbad],
      fun he hl hb => by rw [answerInitStatus_calibrated he hl hb],
      fun he hl hb => by rw [answerInitStatus_uncalibrated he hl hb]⟩

/-! ### INIT_WRITE (R177) -/

theorem exec_cmdInit_initWrite {s : State} (hq : s.seq = .initWrite) :
    exec .cmdInit s = .next (transact answerInitWrite s) := by
  simp [exec, execCmdInit, hq]

/-- The answer rule: `IoError` raises, `Ok` starts the delay. -/
theorem answerInitWrite_eq (s : State) :
    answerInitWrite s = if s.pins.rspErr then Spec.ioErrorRaised .write s else Spec.delayStarted .initDelay 10 s := by
  cases he : s.pins.rspErr
  · simp [answerInitWrite, he, startDelay_receiveAnswer, initMs]
  · simp [answerInitWrite, he, raiseOutcome_ioError_receiveAnswer]

/-- Settles O21: the issue step, and the answer, which the write and the command it carries both take. -/
theorem initializeWrite : Obligations.InitializeWrite := by
  refine ⟨fun s hq hp => ?_, fun s hq hp hv => ?_⟩
  · exact exec_issue (.write s.handle (cmdBytes .init)) hp (exec_trWrite3_initWrite hq) (by simp [seqRequest, hq])
  · rw [exec_cmdInit_initWrite hq, exec_trWrite3_initWrite hq, transact_answer hp hv, answerInitWrite_eq]
    exact ⟨fun he => by simp [he], fun he => by simp [he]⟩

/-! ### The delays (20_memory.md R74) -/

/-- A step in a delay state, whose exit rule is `expire`: a tick counts, no tick waits, and 0 is the exit. -/
theorem step_of_delay {expire : State → State} {s : State} (hr : s.pins.reset = false)
    (hd : runStep s = delayStep expire s) :
    (0 < s.dlyCnt → s.pins.tick = true → step s = .next (sampleInputs { s with dlyCnt := s.dlyCnt - 1 })) ∧
    (0 < s.dlyCnt → s.pins.tick = false → step s = .next (sampleInputs s)) ∧
    (s.dlyCnt = 0 → step s = .next (sampleInputs (expire s))) := by
  rw [step_run hr, hd]
  exact ⟨fun h0 ht => by rw [delayStep_of_tick h0 ht], fun h0 ht => by rw [delayStep_of_no_tick h0 ht],
    fun h0 => by rw [delayStep_of_zero h0]⟩

/-- Settles O24: the delay's step, with the completion of `init` for its exit. -/
theorem initDelayStep : Obligations.InitDelayStep := fun _ hq hr =>
  step_of_delay (expire := finishInit) hr (by simp [runStep, hq])

/-! ### RST_WRITE and RST_DELAY (R191) -/

theorem exec_cmdSoftReset_rstWrite {s : State} (hq : s.seq = .rstWrite) :
    exec .cmdSoftReset s = .next (transact answerRstWrite s) := by
  simp [exec, execCmdSoftReset, hq]

/-- The answer rule: `IoError` raises, `Ok` starts the delay. -/
theorem answerRstWrite_eq (s : State) :
    answerRstWrite s = if s.pins.rspErr then Spec.ioErrorRaised .write s else Spec.delayStarted .rstDelay 20 s := by
  cases he : s.pins.rspErr
  · simp [answerRstWrite, he, startDelay_receiveAnswer, resetMs]
  · simp [answerRstWrite, he, raiseOutcome_ioError_receiveAnswer]

/-- Settles O23: the issue step; the answer, which the write and the command it carries both take; the delay's step,
with the completion of `soft_reset` for its exit. -/
theorem softResetSteps : Obligations.SoftResetSteps := by
  refine ⟨fun s hq hp => ?_, fun s hq hp hv => ?_, fun s hq hr => ?_⟩
  · exact exec_issue (.write s.handle (cmdBytes .softReset)) hp (exec_trWrite1_rstWrite hq) (by simp [seqRequest, hq])
  · rw [exec_cmdSoftReset_rstWrite hq, exec_trWrite1_rstWrite hq, transact_answer hp hv, answerRstWrite_eq]
    exact ⟨fun he => by simp [he], fun he => by simp [he]⟩
  · exact step_of_delay (expire := expireRst) hr (by simp [runStep, hq])

end Sys2Proof.Machine
end

section
/-!
What the operations leave alone: `soft_reset` every result (43_session_ops.md R190, 70_reset_and_hazards.md R231), and
every step the session state but for the edges of the session diagram (43_session_ops.md R193).
-/

namespace Sys2Proof.Machine

/-! ### The steps of `soft_reset` -/

/-- Frame buffer, flags, results, handle and poll counter are the same. -/
def ResultsKept (s t : State) : Prop :=
  t.frame = s.frame ∧ t.frameFull = s.frameFull ∧ t.crcOk = s.crcOk ∧ t.hasTemp = s.hasTemp ∧ t.hasHum = s.hasHum ∧
    t.rawT = s.rawT ∧ t.rawH = s.rawH ∧ t.tempQ20 = s.tempQ20 ∧ t.humQ20 = s.humQ20 ∧
    t.handle = s.handle ∧ t.handleValid = s.handleValid ∧ t.pollCnt = s.pollCnt

theorem ResultsKept.refl (s : State) : ResultsKept s s := ⟨rfl, rfl, rfl, rfl, rfl, rfl, rfl, rfl, rfl, rfl, rfl, rfl⟩

/-- The coming step is one of `soft_reset`: of its two sequencer states, or its acceptance. -/
def inSoftReset (s : State) : Prop :=
  s.seq = .rstWrite ∨ s.seq = .rstDelay ∨ (s.seq = .idle ∧ s.pins.opValid = true ∧ s.pins.opCode = 5#3)

/-- A move of `soft_reset` keeps all results: the moves that write one start in other states, or accept another code. -/
theorem Move.resultsKept_of_inSoftReset {s u : State} (hm : Move s u) (hin : inSoftReset s) : ResultsKept s u := by
  cases hm with
  | measureAccepted hq _ hc =>
    have hcode : s.pins.opValid = true ∧ s.pins.opCode = 5#3 := by simpa [inSoftReset, hq] using hin
    simp [isGet_iff, hcode] at hc
  | opened hq | calibrated hq | uncalibrated hq | pollClear hq | pollTimeout hq | pollBusy hq | frameRead hq
    | settleExpired hq => simp [inSoftReset, hq] at hin
  | _ => exact .refl s

/-- Settles O51: the step is a move of `soft_reset`. -/
theorem softResetLeavesResults : Obligations.SoftResetLeavesResults := by
  intro s t hr h hin
  obtain ⟨hr', -⟩ | ⟨-, u, hm, rfl⟩ := step_moves h
  · simp [hr] at hr'
  · simpa [ResultsKept] using hm.resultsKept_of_inSoftReset hin

/-! ### The session diagram (R193) -/

/-- The session state stays, or the step takes one of the diagram's six changing edges, whose event ends the trace. -/
def SessionEdge (s t : State) : Prop :=
  t.sessState = s.sessState ∨
  (s.sessState = .uninitialized ∧ t.sessState = .ready ∧ ∃ pre, t.trace = s.trace ++ pre ++ [.done codeInit .ok]) ∨
  (s.sessState = .uninitialized ∧ t.sessState = .failed ∧
    ∃ pre, t.trace = s.trace ++ pre ++ [.done codeInit .ioError]) ∨
  (s.sessState = .ready ∧ t.sessState = .measuring ∧ ∃ c, isGet c = true ∧ t.trace = s.trace ++ [.accept c]) ∨
  (s.sessState = .measuring ∧ t.sessState = .ready ∧
    ∃ c pre, isGet c = true ∧
      (t.trace = s.trace ++ pre ++ [.done c .ok] ∨ t.trace = s.trace ++ pre ++ [.done c .timeout])) ∨
  (s.sessState = .measuring ∧ t.sessState = .failed ∧
    ∃ c pre, isGet c = true ∧ t.trace = s.trace ++ pre ++ [.done c .ioError]) ∨
  (s.sessState = .ready ∧ t.sessState = .failed ∧ ∃ pre, t.trace = s.trace ++ pre ++ [.done codeSoftReset .ioError])

section
variable {s : State} (h : StateInv s)
include h

/-- While `init` runs, the session is `Uninitialized` and `cur_op` is its code. -/
theorem StateInv.init_running (hq : isInit s.seq = true) : s.sessState = .uninitialized ∧ s.curOp = codeInit :=
  ⟨h.spec.init_uninitialized hq, h.op_init hq⟩

/-- While a measurement runs, the session is `Measuring` and `cur_op` is a measurement's code. -/
theorem StateInv.meas_running (hq : isMeas s.seq = true) : s.sessState = .measuring ∧ isGet s.curOp = true :=
  ⟨h.spec.measuring_iff.2 hq, isGet_iff.2 (h.op_meas hq)⟩

/-- While `soft_reset` runs, the session is `Ready` and `cur_op` is its code. -/
theorem StateInv.rst_running (hq : isRst s.seq = true) : s.sessState = .ready ∧ s.curOp = codeSoftReset :=
  ⟨h.spec.rst_ready hq, h.op_rst hq⟩

end

/-- A transport state belongs to one of the three kinds of operation. -/
theorem operation_of_usesTransport {q : Seq} (hu : usesTransport q = true) :
    isInit q = true ∨ isMeas q = true ∨ isRst q = true := by
  cases q <;> simp [usesTransport, isInit, isMeas, isRst] at hu ⊢

/-- A failing answer takes the edge to `Failed` of the operation in progress. -/
theorem StateInv.sessionEdge_ioError {s t : State} {pre : List Event} (h : StateInv s) (hu : usesTransport s.seq = true)
    (hs : t.sessState = .failed) (htr : t.trace = s.trace ++ pre ++ [.done s.curOp .ioError]) : SessionEdge s t := by
  obtain hq | hq | hq := operation_of_usesTransport hu
  · obtain ⟨hs0, hc⟩ := h.init_running hq
    exact .inr (.inr (.inl ⟨hs0, hs, pre, hc ▸ htr⟩))
  · obtain ⟨hs0, hc⟩ := h.meas_running hq
    exact .inr (.inr (.inr (.inr (.inr (.inl ⟨hs0, hs, s.curOp, pre, hc, htr⟩)))))
  · obtain ⟨hs0, hc⟩ := h.rst_running hq
    exact .inr (.inr (.inr (.inr (.inr (.inr ⟨hs0, hs, pre, hc ▸ htr⟩)))))

/-- The completion of `init` takes the edge to `Ready`. -/
theorem StateInv.sessionEdge_init {s t : State} {pre : List Event} (h : StateInv s) (hq : isInit s.seq = true)
    (hs : t.sessState = .ready) (htr : t.trace = s.trace ++ pre ++ [.done s.curOp .ok]) : SessionEdge s t := by
  obtain ⟨hs0, hc⟩ := h.init_running hq
  exact .inr (.inl ⟨hs0, hs, pre, hc ▸ htr⟩)

/-- The completion of a measurement, with a result or with `Timeout`, takes the edge back to `Ready`. -/
theorem StateInv.sessionEdge_meas {s t : State} {pre : List Event} (h : StateInv s) (hq : isMeas s.seq = true)
    (hs : t.sessState = .ready)
    (htr : t.trace = s.trace ++ pre ++ [.done s.curOp .ok] ∨ t.trace = s.trace ++ pre ++ [.done s.curOp .timeout]) :
    SessionEdge s t := by
  obtain ⟨hs0, hc⟩ := h.meas_running hq
  exact .inr (.inr (.inr (.inr (.inl ⟨hs0, hs, s.curOp, pre, hc, htr⟩))))

/-- Every move keeps to the session diagram. -/
theorem Move.sessionEdge {s u : State} (hm : Move s u) (h : StateInv s) : SessionEdge s u := by
  cases hm with
  | measureAccepted _ _ hc hs => exact .inr (.inr (.inr (.inl ⟨hs, rfl, _, hc, rfl⟩)))
  | ioError r hr =>
    exact h.sessionEdge_ioError (pre := [.rsp (reqKind r) (portAnswer (reqKind r) s.pins)])
      (usesTransport_of_seqRequest hr) rfl (by simp)
  | calibrated hq =>
    exact h.sessionEdge_init (pre := [.rsp .read (.okBytes 1#4 [answerByte s.pins 0])]) (by simp [hq, isInit]) rfl
      (by simp)
  | initExpired hq => exact h.sessionEdge_init (pre := []) (by simp [hq, isInit]) rfl (by simp)
  | pollTimeout hq =>
    exact h.sessionEdge_meas (pre := [.rsp .read (.okBytes 1#4 [answerByte s.pins 0])]) (by simp [hq, isMeas]) rfl
      (by simp)
  | frameRead hq =>
    exact h.sessionEdge_meas (pre := [.rsp .read (.okBytes 7#4 (frameBytes (answerFrame s.pins)))])
      (by simp [hq, isMeas]) rfl (by simp)
  | _ => exact .inl rfl

/-- The session state a completion with a status leaves, from the one before it (60_exceptions.md R200). -/
def sessionAfter (st : Status) (before : SessState) : SessState :=
  match st with
  | .ok => .ready
  | .ioError => .failed
  | .timeout => .ready
  | .invalid => before

/-- A move that ends in a completion leaves the session state its status says. -/
theorem Move.session_of_done {s u : State} {c : OpCode} {st : Status} {pre : List Event} (hm : Move s u)
    (h : StateInv s) (htr : u.trace = s.trace ++ pre ++ [.done c st]) : u.sessState = sessionAfter st s.sessState := by
  have hlast := congrArg List.getLast? htr
  cases hm with
  | idleWait | wait | tick | delayWait | settleExpired => simp at htr
  | issue r => cases r <;> simp [reqEvent] at hlast
  | initAccepted | measureAccepted | resetAccepted | opened | uncalibrated | delayStarted | pollClear | pollBusy =>
    simp at hlast
  | refused | ioError | calibrated | pollTimeout | frameRead | initExpired =>
    obtain ⟨-, rfl⟩ : _ = c ∧ _ = st := by simpa using hlast
    rfl
  | resetExpired hq =>
    obtain ⟨-, rfl⟩ : _ = c ∧ _ = st := by simpa using hlast
    exact (h.rst_running (by simp [hq, isRst])).1

/-- Settles O43: a reset step leads to `Uninitialized`, and a move keeps to the diagram. -/
theorem sessionDiagram : Obligations.SessionDiagram := by
  refine ⟨fun s t hr h => ?_, fun s t hi hr h => ?_⟩
  · obtain rfl := Host.Outcome.next.inj ((step_reset hr).symm.trans h)
    simp
  obtain ⟨hr', -⟩ | ⟨-, u, hm, rfl⟩ := step_moves h
  · simp [hr] at hr'
  refine ⟨by simpa [SessionEdge, codeInit, codeSoftReset] using hm.sessionEdge hi, fun c st pre htr => ?_⟩
  have hs : (sampleInputs u).sessState = sessionAfter st s.sessState := by
    simpa using hm.session_of_done hi (by simpa using htr)
  cases st <;> exact hs

end Sys2Proof.Machine
end

section
/-!
Runs under given inputs: an operation, a transaction, a delay and the busy rounds of a poll, each as one equation about
the run that goes on from it; and the two runs the spec works out, a calibrated `init` (43_session_ops.md R176) and a
measurement (42_measurement_fsm.md R159).
-/

namespace Sys2Proof.Machine

/-! ### Inputs one after another -/

/-- The state with the inputs of the coming steps in order; no input leaves the levels as they are. -/
def feed (ps : List Pins) (s : State) : State := { s with pins := ps.headD s.pins, env := ps.tail }

theorem feed_pins_env (s : State) : feed (s.pins :: s.env) s = s := rfl

/-- No move touches the inputs to come. -/
theorem Move.env {s u : State} (hm : Move s u) : u.env = s.env := by
  cases hm <;> rfl

/-- While there are inputs to come, a step takes the next one. -/
theorem sampleInputs_eq_feed {s : State} (hne : s.env ≠ []) : sampleInputs s = feed s.env s := by
  obtain ⟨p, rest, he⟩ := List.exists_cons_of_ne_nil hne
  rw [sampleInputs_cons s p rest he, he]
  rfl

/-- A run whose first step has the inputs `p` and no reset. -/
theorem run_feed (n : Nat) {s u : State} {p : Pins} {ps : List Pins} (hr : p.reset = false) (hne : ps ≠ [])
    (hu : runStep (feed (p :: ps) s) = u) :
    Host.Core.run Sys2Proof.core (n + 1) (feed (p :: ps) s) = Host.Core.run Sys2Proof.core n (feed ps u) := by
  have henv : u.env = ps := hu ▸ (runStep_move _).env
  have hstep : coreStep (feed (p :: ps) s) = u := by simpa [coreStep, feed, hr] using hu
  rw [run_succ, hstep, sampleInputs_eq_feed (henv ▸ hne), henv]

/-- The host presents an operation in IDLE: the step is the operation's. -/
theorem runStep_of_operation {s u : State} {c : OpCode} (hq : s.seq = .idle) (ho : s.pins.opValid = true)
    (hc : s.pins.opCode = c) (hx : exec (decodeHostop c) s = .next u) : runStep s = u := by
  rw [exec_decodeHostop] at hx
  simpa [runStep, hq, ho, hc] using hx

/-! ### A transaction: the request issued, and answered in the step after it -/

/-- The answer rule of each transport state. -/
def answerOf : Seq → State → State
  | .initOpen => answerOpen
  | .initStatus => answerInitStatus
  | .initWrite => answerInitWrite
  | .measTrigger => answerTrigger
  | .measPoll => answerPoll
  | .measFrame => answerFrameRead
  | .rstWrite => answerRstWrite
  | .idle | .initDelay | .measSettle | .rstDelay => id

theorem runStep_transport {s : State} (hu : usesTransport s.seq = true) :
    runStep s = transact (answerOf s.seq) s := by
  cases hq : s.seq <;> simp [usesTransport, hq] at hu <;> simp [runStep, hq, answerOf]

/-- The state with its request outstanding. -/
def requested (r : TrReq) (s : State) : State := { s with trPending := true, trace := s.trace ++ [reqEvent r] }

theorem run_transaction (n : Nat) {s u : State} {q : Seq} {r : TrReq} {p p' : Pins} {ps : List Pins} (hq : s.seq = q)
    (hreq : seqRequest s = some r) (hp : s.trPending = false) (hr : p.reset = false) (hr' : p'.reset = false)
    (hv : p'.rspValid = true) (hne : ps ≠ []) (hu : answerOf q (feed (p' :: ps) (requested r s)) = u) :
    Host.Core.run Sys2Proof.core (n + 2) (feed (p :: p' :: ps) s) = Host.Core.run Sys2Proof.core n (feed ps u) := by
  have htr : usesTransport s.seq = true := usesTransport_of_seqRequest hreq
  have hissue : runStep (feed (p :: p' :: ps) s) = requested r (feed (p :: p' :: ps) s) :=
    (runStep_transport (s := feed _ s) htr).trans (transact_of_request hp hreq)
  have hanswer : runStep (feed (p' :: ps) (requested r s)) = u := by
    rw [← hu, ← hq]
    exact (runStep_transport (s := feed _ (requested r s)) htr).trans (transact_answer rfl hv)
  rw [run_feed (n + 1) hr (by simp) hissue]
  exact run_feed n hr' hne hanswer

/-- Settles O56: an acceptance, the transaction of the open, and that of a status read whose byte has bit 3 set. -/
theorem calibratedInitWritesNothing : Obligations.CalibratedInitWritesNothing := by
  intro s p0 p1 p2 p3 p4 p5 rest hq hp hs hpins henv hr ho hc hv2 he2 hv4 he4 hl4 hb4
  obtain ⟨hr0, hr1, hr2, hr3, hr4⟩ :
      p0.reset = false ∧ p1.reset = false ∧ p2.reset = false ∧ p3.reset = false ∧ p4.reset = false := by simpa using hr
  have hfeed : s = feed (p0 :: p1 :: p2 :: p3 :: p4 :: p5 :: rest) s := by rw [← hpins, ← henv, feed_pins_env]
  refine ⟨_, ?_, rfl⟩
  rw [hfeed]
  refine Eq.trans
    (run_feed 4 hr0 (by simp) (runStep_of_operation (c := codeInit) hq ho hc (exec_init_accepted hq hs))) ?_
  refine Eq.trans (run_transaction 2 rfl rfl rfl hr1 hr2 hv2 (by simp) (answerOpen_ok he2)) ?_
  refine Eq.trans (run_transaction 0 rfl rfl rfl hr3 hr4 hv4 (by simp) (answerInitStatus_calibrated he4 hl4 hb4)) ?_
  simp [Host.Core.run, feed, requested, reqEvent, hq, hp, codeInit, devAddr]

/-! ### A delay ticked through -/

theorem runStep_tick {s : State} (hq : s.seq = .initDelay ∨ s.seq = .measSettle ∨ s.seq = .rstDelay)
    (h0 : 0 < s.dlyCnt) (ht : s.pins.tick = true) : runStep s = { s with dlyCnt := s.dlyCnt - 1 } := by
  rcases hq with hq | hq | hq <;> simp [runStep, hq, delayStep_of_tick h0 ht]

theorem run_ticks (n : Nat) {s : State} {ticks ps : List Pins}
    (hq : s.seq = .initDelay ∨ s.seq = .measSettle ∨ s.seq = .rstDelay) (hk : ticks.length ≤ s.dlyCnt)
    (ht : ∀ p ∈ ticks, p.reset = false ∧ p.tick = true) (hne : ps ≠ []) :
    Host.Core.run Sys2Proof.core (n + ticks.length) (feed (ticks ++ ps) s) =
      Host.Core.run Sys2Proof.core n (feed ps { s with dlyCnt := s.dlyCnt - ticks.length }) := by
  obtain ⟨p', rest, rfl⟩ := List.exists_cons_of_ne_nil hne
  induction ticks generalizing s with
  | nil => rfl
  | cons p ticks ih =>
    obtain ⟨⟨hr, htick⟩, hts⟩ := List.forall_mem_cons.1 ht
    have hk : ticks.length + 1 ≤ s.dlyCnt := hk
    refine Eq.trans (run_feed (n + ticks.length) hr (by simp) (runStep_tick hq (Nat.zero_lt_of_lt hk) htick)) ?_
    refine Eq.trans (ih hq (Nat.le_sub_of_add_le hk) hts) ?_
    simp [feed, Nat.sub_sub, Nat.add_comm]

theorem runStep_settled {s : State} (hq : s.seq = .measSettle) (h0 : s.dlyCnt = 0) :
    runStep s = { s with pollCnt := 0#16, seq := .measPoll, trPending := false } := by
  simp [runStep, hq, delayStep_of_zero h0, expireSettle, enter]

/-! ### The busy rounds of a poll -/

theorem answerPoll_clear {s : State} (he : s.pins.rspErr = false) (hl : s.pins.rspLen = 1#4)
    (hb : busyFlag (answerByte s.pins 0) = false) : answerPoll s = { Spec.statusPolled s with seq := .measFrame } := by
  rw [answerPoll_of_good he hl, pollStatus_clear hb]

theorem answerPoll_busy {s : State} (hq : s.seq = .measPoll) (hp : s.trPending = true) (hv : s.pins.rspValid = true)
    (he : s.pins.rspErr = false) (hl : s.pins.rspLen = 1#4) (hb : busyFlag (answerByte s.pins 0) = true)
    (hroom : s.cfgPollLimit = 0#16 ∨ s.pollCnt + 1#16 ≠ s.cfgPollLimit) : answerPoll s = Spec.statusPolled s := by
  obtain ⟨-, -, hbusy⟩ := (pollAnswered s hq hp hv).2 he hl
  have hx := hbusy hb hroom
  rw [exec_trRead1_measPoll hq, transact_answer hp hv] at hx
  exact Host.Outcome.next.inj hx

/-- The state after one busy round of the poll. -/
def busyPolled (s : State) (r : Pins × Pins) : State :=
  { s with frame := { s.frame with b0 := answerByte r.2 0 }, frameFull := false,
           pollCnt := if s.cfgPollLimit = 0#16 then s.pollCnt else s.pollCnt + 1#16,
           trace := s.trace ++ Spec.busyEvents s.handle r }

theorem run_busyRound (n : Nat) {s : State} {r : Pins × Pins} {ps : List Pins} (hq : s.seq = .measPoll)
    (hp : s.trPending = false) (hb : Spec.busyRound r)
    (hroom : s.cfgPollLimit = 0#16 ∨ s.pollCnt + 1#16 ≠ s.cfgPollLimit) (hne : ps ≠ []) :
    Host.Core.run Sys2Proof.core (n + 2) (feed (r.1 :: r.2 :: ps) s) =
      Host.Core.run Sys2Proof.core n (feed ps (busyPolled s r)) := by
  obtain ⟨hr, hr', hv, he, hl, hbit⟩ := hb
  rw [run_transaction n hq (r := .read s.handle 1) (by simp [seqRequest, hq]) hp hr hr' hv hne
    (answerPoll_busy hq rfl hv he hl hbit hroom)]
  obtain ⟨p, rest, rfl⟩ := List.exists_cons_of_ne_nil hne
  simp [feed, requested, reqEvent, Spec.statusPolled, busyPolled, Spec.busyEvents, hp]

/-- A count with room for one round more than `k` has room for `k` after a round, and the round is not the last one. -/
theorem busyPolled_room {s : State} {k : Nat} (r : Pins × Pins)
    (hroom : s.cfgPollLimit = 0#16 ∨ s.pollCnt.toNat + (k + 1) < s.cfgPollLimit.toNat) :
    (s.cfgPollLimit = 0#16 ∨ s.pollCnt + 1#16 ≠ s.cfgPollLimit) ∧
    ((busyPolled s r).cfgPollLimit = 0#16 ∨
      (busyPolled s r).pollCnt.toNat + k < (busyPolled s r).cfgPollLimit.toNat) := by
  by_cases h0 : s.cfgPollLimit = 0#16
  · exact ⟨.inl h0, .inl h0⟩
  · have hlt := hroom.resolve_left h0
    have hsucc := pollCnt_succ_toNat (cnt := s.pollCnt) (lim := s.cfgPollLimit) (by omega)
    refine ⟨.inr fun heq => ?_, .inr ?_⟩
    · rw [heq] at hsucc
      omega
    · simp only [busyPolled, h0, if_false, hsucc]
      omega

theorem run_busyRounds (n : Nat) {s : State} {rounds : List (Pins × Pins)} {ps : List Pins} (hq : s.seq = .measPoll)
    (hp : s.trPending = false) (hb : ∀ r ∈ rounds, Spec.busyRound r)
    (hroom : s.cfgPollLimit = 0#16 ∨ s.pollCnt.toNat + rounds.length < s.cfgPollLimit.toNat) (hne : ps ≠ []) :
    Host.Core.run Sys2Proof.core (n + 2 * rounds.length) (feed (rounds.flatMap (fun r => [r.1, r.2]) ++ ps) s) =
      Host.Core.run Sys2Proof.core n (feed ps (rounds.foldl busyPolled s)) := by
  induction rounds generalizing s with
  | nil => rfl
  | cons r rounds ih =>
    obtain ⟨hr, hrs⟩ := List.forall_mem_cons.1 hb
    obtain ⟨hnotlast, hroom'⟩ := busyPolled_room r hroom
    exact (run_busyRound (n + 2 * rounds.length) hq hp hr hnotlast (by simp [hne])).trans (ih hq hp hrs hroom')

/-- Busy rounds write the frame buffer, the poll counter and the trace, and nothing else. -/
theorem foldl_busyPolled (rounds : List (Pins × Pins)) (s : State) :
    ∃ f full cnt, rounds.foldl busyPolled s =
      { s with frame := f, frameFull := full, pollCnt := cnt,
               trace := s.trace ++ rounds.flatMap (Spec.busyEvents s.handle) } := by
  induction rounds generalizing s with
  | nil => exact ⟨s.frame, s.frameFull, s.pollCnt, by simp⟩
  | cons r rounds ih =>
    obtain ⟨f, full, cnt, heq⟩ := ih (busyPolled s r)
    exact ⟨f, full, cnt, heq.trans (by simp [busyPolled])⟩

/-! ### A measurement -/

/-- The state in which the poll of measurement `c` begins, accepted in `s`. -/
def pollEntered (c : OpCode) (s : State) : State :=
  { Spec.measurementStarted c s with
    seq := .measPoll, dlyCnt := 0, pollCnt := 0#16
    trace := s.trace ++ [.accept c, .write s.handle [0xAC#8, 0x33#8, 0x00#8], .rsp .write .okWrite, .delay 80] }

/-- From the acceptance through the trigger write and the settle delay to the poll. -/
theorem run_to_poll (n : Nat) {s : State} {c : OpCode} {pOp pIssue pWrite pExit : Pins} {ticks ps : List Pins}
    (hq : s.seq = .idle) (hs : s.sessState = .ready) (hget : isGet c = true)
    (hr : pOp.reset = false ∧ pIssue.reset = false ∧ pWrite.reset = false ∧ pExit.reset = false)
    (ho : pOp.opValid = true) (hc : pOp.opCode = c) (hv : pWrite.rspValid = true) (he : pWrite.rspErr = false)
    (ht : ∀ p ∈ ticks, p.reset = false ∧ p.tick = true) (hlen : ticks.length = 80 * s.ticksPerMs.val) (hne : ps ≠ []) :
    Host.Core.run Sys2Proof.core (n + 1 + ticks.length + 2 + 1)
        (feed (pOp :: pIssue :: pWrite :: (ticks ++ pExit :: ps)) s) =
      Host.Core.run Sys2Proof.core n (feed ps (pollEntered c s)) := by
  obtain ⟨hr0, hr1, hr2, hr3⟩ := hr
  refine Eq.trans (run_feed _ hr0 (by simp) (runStep_of_operation hq ho hc (exec_get_accepted hget hq hs))) ?_
  refine Eq.trans (run_transaction _ rfl rfl rfl hr1 hr2 hv (by simp) (answerTrigger_ok he)) ?_
  refine Eq.trans (run_ticks (n + 1) (.inr (.inl rfl)) hlen.le ht (by simp)) ?_
  refine Eq.trans (run_feed n hr3 hne (runStep_settled rfl (Nat.sub_eq_zero_of_le hlen.ge))) ?_
  obtain ⟨p, rest, rfl⟩ := List.exists_cons_of_ne_nil hne
  simp [feed, requested, reqEvent, Spec.delayStarted, Spec.measurementStarted, pollEntered, cmdBytes, hlen]

/-- From the poll through its busy rounds, a clear status byte and the frame read to the completion. -/
theorem run_poll_to_completion {s : State} {pRead pStatus pRead7 pFrame pNext : Pins} {rounds : List (Pins × Pins)}
    {rest : List Pins} (hq : s.seq = .measPoll) (hp : s.trPending = false)
    (hr : pRead.reset = false ∧ pStatus.reset = false ∧ pRead7.reset = false ∧ pFrame.reset = false)
    (hb : ∀ r ∈ rounds, Spec.busyRound r)
    (hroom : s.cfgPollLimit = 0#16 ∨ s.pollCnt.toNat + rounds.length < s.cfgPollLimit.toNat)
    (hv : pStatus.rspValid = true) (he : pStatus.rspErr = false) (hl : pStatus.rspLen = 1#4)
    (hclear : (answerByte pStatus 0).getLsbD 7 = false)
    (hv7 : pFrame.rspValid = true) (he7 : pFrame.rspErr = false) (hl7 : pFrame.rspLen = 7#4) :
    ∃ cnt, Host.Core.run Sys2Proof.core (0 + 2 + 2 + 2 * rounds.length)
        (feed (rounds.flatMap (fun r => [r.1, r.2]) ++ pRead :: pStatus :: pRead7 :: pFrame :: pNext :: rest) s) =
      .next { Spec.measurementCompleted (feed [pFrame] s) with
        pollCnt := cnt, pins := pNext, env := rest
        trace := s.trace ++ rounds.flatMap (Spec.busyEvents s.handle) ++
          [.read s.handle 1, .rsp .read (.okBytes 1#4 [answerByte pStatus 0]), .read s.handle 7,
           .rsp .read (.okBytes 7#4 (frameBytes (answerFrame pFrame))), .done s.curOp .ok] } := by
  obtain ⟨hr1, hr2, hr3, hr4⟩ := hr
  obtain ⟨f, full, cnt, hfold⟩ := foldl_busyPolled rounds s
  rw [run_busyRounds _ hq hp hb hroom (by simp), hfold]
  refine ⟨if s.cfgPollLimit = 0#16 then cnt else cnt + 1#16, ?_⟩
  refine Eq.trans (run_transaction 2 hq (r := .read s.handle 1) (by simp [seqRequest, hq]) hp hr1 hr2 hv (by simp)
    (answerPoll_clear he hl hclear)) ?_
  refine Eq.trans (run_transaction 0 rfl rfl rfl hr3 hr4 hv7 (by simp) (answerFrameRead_of_good he7 hl7)) ?_
  simp [Host.Core.run, feed, requested, reqEvent, Spec.statusPolled, Spec.measurementCompleted, frameLen]

/-- Settles O57: the run to the poll, and from there to the completion, whose results are those of the operation. -/
theorem measurementDelivers : Obligations.MeasurementDelivers := by
  intro s c pOp pIssue pWrite pExit pRead pStatus pRead7 pFrame pNext ticks rounds rest hq hp hs hget hin hr ht hlen hb
    hroom ho hc hv he hv1 he1 hl1 hclear hv7 he7 hl7
  simp only [List.forall_mem_cons] at hr
  obtain ⟨hr0, hr1, hr2, hr3, hr4, hr5, hr6, hr7, -⟩ := hr
  have hfeed : s = feed (pOp :: pIssue :: pWrite :: (ticks ++ pExit :: (rounds.flatMap (fun r => [r.1, r.2]) ++
      pRead :: pStatus :: pRead7 :: pFrame :: pNext :: rest))) s := by
    simp only [List.append_assoc, List.cons_append, List.nil_append] at hin
    rw [← hin, feed_pins_env]
  have hsteps : 8 + 80 * s.ticksPerMs.val + 2 * rounds.length =
      0 + 2 + 2 + 2 * rounds.length + 1 + ticks.length + 2 + 1 := by omega
  obtain ⟨cnt, hrun⟩ := run_poll_to_completion (s := pollEntered c s) (pNext := pNext) (rest := rest) rfl rfl
    ⟨hr4, hr5, hr6, hr7⟩ hb (by simpa [pollEntered, Spec.measurementStarted] using hroom) hv1 he1 hl1 hclear hv7 he7 hl7
  have hall := (run_to_poll _ hq hs hget ⟨hr0, hr1, hr2, hr3⟩ ho hc hv he ht hlen (by simp)).trans hrun
  rw [← hfeed, ← hsteps] at hall
  refine ⟨_, hall, ?_⟩
  simp [Spec.measurementCompleted, pollEntered, Spec.measurementStarted, feed, beq_eq_decide]

end Sys2Proof.Machine
end

section
/-!
Exceptional ends of an operation (60_exceptions.md): every step answers, what raises `IoError` or `Timeout` and what either
leaves (R201, R204, R205), and that a failed session stays failed (R208).
-/

namespace Sys2Proof.Machine

/-- A step without reset that answers is the step of the sequencer's state. -/
theorem eq_sampleInputs_runStep {s t : State} (hr : s.pins.reset = false) (h : step s = .next t) :
    t = sampleInputs (runStep s) :=
  (Host.Outcome.next.inj ((step_run hr).symm.trans h)).symm

/-- Settles O32: a step is the core's step, which is a function of the state, since every word presented decodes. -/
theorem stepAlwaysAnswers : Obligations.StepAlwaysAnswers := fun s => ⟨_, step_eq s⟩

/-! ### What raises `IoError` (R201) -/

/-- A failing answer is one to a request of the state. -/
theorem exists_request_of_answerFails {s : State} (hf : answerFails s = true) : ∃ r, seqRequest s = some r := by
  cases hq : s.seq with
  | idle | initDelay | measSettle | rstDelay => simp [answerFails, hq] at hf
  | initOpen | initStatus | initWrite | measTrigger | measPoll | measFrame | rstWrite => simp [seqRequest, hq]

/-- The failing answers, state by state. -/
theorem answerFails_iff {s : State} : answerFails s = true ↔
    ((s.seq = .initOpen ∨ s.seq = .initWrite ∨ s.seq = .measTrigger ∨ s.seq = .rstWrite) ∧ s.pins.rspErr = true) ∨
    ((s.seq = .initStatus ∨ s.seq = .measPoll) ∧ (s.pins.rspErr = true ∨ s.pins.rspLen.toNat ≠ 1)) ∨
    (s.seq = .measFrame ∧ (s.pins.rspErr = true ∨ s.pins.rspLen.toNat ≠ 7)) := by
  cases hq : s.seq with
  | idle | initDelay | measSettle | rstDelay | initOpen | initWrite | measTrigger | rstWrite => simp [answerFails, hq]
  | initStatus | measPoll | measFrame => simp [answerFails, hq, readOk_eq_false_iff]

/-- Of the moves only `raise IoError` takes a session to `Failed`. -/
theorem Move.answerFails_of_failed {s u : State} (hm : Move s u) (hs : s.sessState ≠ .failed)
    (hu : u.sessState = .failed) : s.trPending = true ∧ s.pins.rspValid = true ∧ answerFails s = true := by
  cases hm with
  | ioError _ _ hp hv hf => exact ⟨hp, hv, hf⟩
  | measureAccepted | calibrated | pollTimeout | frameRead | initExpired => cases hu
  | _ => exact absurd hu hs

/-- A failing answer to the outstanding request raises `IoError`, whatever the request. -/
theorem exists_runStep_eq_ioErrorRaised {s : State} (hp : s.trPending = true) (hv : s.pins.rspValid = true)
    (hf : answerFails s = true) : ∃ k, runStep s = Spec.ioErrorRaised k s := by
  obtain ⟨r, hr⟩ := exists_request_of_answerFails hf
  exact ⟨reqKind r, runStep_of_answerFails hr hp hv hf⟩

/-- Settles O45: a move to `Failed` has a failing answer, and a failing answer raises `IoError`. -/
theorem ioErrorCauses : Obligations.IoErrorCauses := by
  intro s t hr hs h
  obtain rfl := eq_sampleInputs_runStep hr h
  rw [sampleInputs_sessState, ← answerFails_iff]
  refine ⟨(runStep_move s).answerFails_of_failed hs, fun ⟨hp, hv, hf⟩ => ?_⟩
  obtain ⟨k, hk⟩ := exists_runStep_eq_ioErrorRaised hp hv hf
  rw [hk]
  rfl

/-! ### What a raised outcome leaves (R205) -/

/-- `raise Timeout` after the status byte is stored and counted, as one state. -/
theorem raiseOutcome_timeout_statusPolled (s : State) : raiseOutcome .timeout (Spec.statusPolled s) =
    { Spec.statusPolled s with
      sessState := .ready, seq := .idle, rspStatus := .timeout, rspValid := true,
      trace := s.trace ++ [.rsp .read (.okBytes 1#4 [answerByte s.pins 0]), .done s.curOp .timeout] } := by
  simp [raiseOutcome, complete, emit, raisedStatus, raisedSession, Spec.statusPolled]

/-- Settles O47: the causes of either outcome, and the state its step leaves. -/
theorem raisedOutcomesEndTheOperation : Obligations.RaisedOutcomesEndTheOperation := by
  refine ⟨fun s t hr hs h hfailed => ?_, fun s t hr h ⟨_, htr⟩ => ?_⟩
  · obtain rfl := eq_sampleInputs_runStep hr h
    obtain ⟨hp, hv, hf⟩ := (runStep_move s).answerFails_of_failed hs (by simpa using hfailed)
    obtain ⟨k, hk⟩ := exists_runStep_eq_ioErrorRaised hp hv hf
    exact ⟨hp, k, congrArg sampleInputs hk⟩
  · obtain rfl := eq_sampleInputs_runStep hr h
    have hto : timesOut s := (runStep_move s).timesOut_of_trace (by simpa using htr)
    have ⟨_, hp, _⟩ := hto
    exact ⟨hp, by rw [runStep_of_timesOut hto, raiseOutcome_timeout_statusPolled]⟩

/-! ### A failed session (R208) -/

/-- Every operation in progress has a session state of its own, so a failed session is idle. -/
theorem StateInv.idle_of_failed {s : State} (h : StateInv s) (hs : s.sessState = .failed) : s.seq = .idle := by
  have hinit : isInit s.seq = false := Bool.eq_false_iff.2 fun hq => by simp [(h.init_running hq).1] at hs
  have hmeas : isMeas s.seq = false := Bool.eq_false_iff.2 fun hq => by simp [(h.meas_running hq).1] at hs
  have hrst : isRst s.seq = false := Bool.eq_false_iff.2 fun hq => by simp [(h.rst_running hq).1] at hs
  cases hq : s.seq <;> simp [hq, isInit, isMeas, isRst] at hinit hmeas hrst ⊢

/-- An idle failed session refuses whatever is presented (43_session_ops.md R172), and else waits. -/
theorem runStep_of_failed {s : State} (hq : s.seq = .idle) (hs : s.sessState = .failed) :
    runStep s = if s.pins.opValid then refuse s.pins.opCode s else s := by
  have ha : admits s.pins.opCode s.sessState = false := by simp [hs, admits]
  simp only [runStep, hq, hostOp_refuse hq ha]

/-- Settles O44: by the invariant the failed session is idle, where it waits or refuses. -/
theorem failedIsTerminal : Obligations.FailedIsTerminal := by
  intro s t hi hs hr h
  obtain rfl := eq_sampleInputs_runStep hr h
  have hq : s.seq = .idle := hi.idle_of_failed hs
  rw [runStep_of_failed hq hs, refuse_of_idle _ hq]
  cases ho : s.pins.opValid <;> simp [hs, hq]

end Sys2Proof.Machine
end

section
/-!
Reset and hazards (70_reset_and_hazards.md): what the step does not look at (R232, R245), what waiting leaves (R230, R243),
what a failed measurement leaves (R244), and runs without an end or with a least length (R240, R242).
-/

namespace Sys2Proof.Machine

/-! ### Which inputs a step looks at -/

/-- The state under other input levels at the coming step. -/
def setPins (p : Pins) (s : State) : State := { s with pins := p }

/-- The levels `p` and `q` of the answer port are the same. -/
structure AnswersAgree (p q : Pins) : Prop where
  valid : p.rspValid = q.rspValid
  err : p.rspErr = q.rspErr
  len : p.rspLen = q.rspLen
  rdata : p.rspRdata = q.rspRdata
  handle : p.rspHandle = q.rspHandle

/-- The levels `p` are the state's own where its coming step looks: the operation port in IDLE, the answer port while a
request is outstanding, and the other inputs always. -/
structure LooksAlike (s : State) (p : Pins) : Prop where
  reset : p.reset = s.pins.reset
  straps : p.straps = s.pins.straps
  tick : p.tick = s.pins.tick
  operation : s.seq = .idle → p.opValid = s.pins.opValid ∧ p.opCode = s.pins.opCode
  answer : s.trPending = true → AnswersAgree p s.pins

/-- The levels of the coming step are gone once the inputs of the next one are taken. -/
theorem sampleInputs_setPins (p : Pins) (s : State) : sampleInputs (setPins p s) = sampleInputs s := by
  cases he : s.env with
  | nil => rw [sampleInputs_nil s he, sampleInputs_nil (setPins p s) he]; rfl
  | cons q rest => rw [sampleInputs_cons s q rest he, sampleInputs_cons (setPins p s) q rest he]; rfl

theorem readOk_congr {p q : Pins} (h : AnswersAgree p q) (n : Nat) : readOk n p = readOk n q := by
  simp [readOk, h.err, h.len]

theorem answerByte_congr {p q : Pins} (h : AnswersAgree p q) (i : Nat) : answerByte p i = answerByte q i := by
  simp [answerByte, h.rdata]

theorem answerFrame_congr {p q : Pins} (h : AnswersAgree p q) : answerFrame p = answerFrame q := by
  simp [answerFrame, answerByte_congr h]

theorem portAnswer_congr {p q : Pins} (h : AnswersAgree p q) (k : TrKind) : portAnswer k p = portAnswer k q := by
  simp [portAnswer, h.err, h.len, h.handle, answerFrame_congr h]

theorem receiveAnswer_setPins {p : Pins} {s : State} (h : AnswersAgree p s.pins) (k : TrKind) :
    receiveAnswer k (setPins p s) = setPins p (receiveAnswer k s) := by
  simp [receiveAnswer, setPins, portAnswer_congr h, emit]

@[simp] theorem setPins_pins (p : Pins) (s : State) : (setPins p s).pins = p := rfl

/-- What a status byte leads to is decided by the byte and the registers. -/
theorem pollStatus_setPins (p : Pins) (b : Byte) (s : State) :
    pollStatus b (setPins p s) = setPins p (pollStatus b s) := by
  obtain ⟨hb, h⟩ | ⟨hb, he, h⟩ | ⟨hb, he, h⟩ := pollStatus_cases b s <;> rw [h]
  · exact pollStatus_clear hb
  · exact pollStatus_timeout hb he
  · exact pollStatus_busy hb (Bool.eq_false_iff.1 he)

theorem initStatusByte_setPins (p : Pins) (b : Byte) (s : State) :
    initStatusByte b (setPins p s) = setPins p (initStatusByte b s) := by
  rw [initStatusByte, initStatusByte, apply_ite (setPins p)]
  rfl

/-- An answer rule looks at the answer port alone. -/
theorem answerOf_setPins {p : Pins} {s : State} (h : AnswersAgree p s.pins) (q : Seq) :
    answerOf q (setPins p s) = setPins p (answerOf q s) := by
  have hrec := receiveAnswer_setPins h
  cases q with
  | idle | initDelay | measSettle | rstDelay => rfl
  | initOpen =>
    simp only [answerOf, answerOpen, hrec, setPins_pins, h.err, h.handle]
    rw [apply_ite (setPins p)]
    rfl
  | initWrite | measTrigger | rstWrite =>
    simp only [answerOf, answerInitWrite, answerTrigger, answerRstWrite, hrec, setPins_pins, h.err]
    rw [apply_ite (setPins p)]
    rfl
  | initStatus =>
    simp only [answerOf, answerInitStatus, hrec, setPins_pins, readOk_congr h, answerByte_congr h]
    rw [apply_ite (setPins p), ← initStatusByte_setPins]
    rfl
  | measPoll =>
    simp only [answerOf, answerPoll, hrec, setPins_pins, readOk_congr h, answerByte_congr h]
    rw [apply_ite (setPins p), ← pollStatus_setPins]
    rfl
  | measFrame =>
    simp only [answerOf, answerFrameRead, hrec, setPins_pins, readOk_congr h, answerFrame_congr h]
    rw [apply_ite (setPins p)]
    rfl

theorem issueRequest_setPins (p : Pins) (s : State) : issueRequest (setPins p s) = setPins p (issueRequest s) := by
  cases h : requestPort s with
  | none => simp only [issueRequest, h, show requestPort (setPins p s) = none from h]
  | some r => rw [issueRequest_of_port h, issueRequest_of_port (s := setPins p s) h]; rfl

/-- A transport step looks at the answer port alone, and at that only while its request is outstanding. -/
theorem transact_setPins {p : Pins} {s : State} (h : s.trPending = true → AnswersAgree p s.pins) (q : Seq) :
    transact (answerOf q) (setPins p s) = setPins p (transact (answerOf q) s) := by
  obtain ⟨hp, ht⟩ | ⟨hp, hv, ht⟩ | ⟨hp, hv, ht⟩ := transact_cases (answerOf q) s <;> rw [ht]
  · rw [transact_issue (s := setPins p s) hp, issueRequest_setPins]
  · rw [transact_answer (s := setPins p s) hp ((h hp).valid.trans hv), answerOf_setPins (h hp)]
  · exact transact_wait (s := setPins p s) hp ((h hp).valid.trans hv)

/-- A delay looks at the tick alone. -/
theorem delayStep_setPins {expire : State → State} {p : Pins} {s : State} (ht : p.tick = s.pins.tick)
    (he : expire (setPins p s) = setPins p (expire s)) :
    delayStep expire (setPins p s) = setPins p (delayStep expire s) := by
  obtain ⟨h0, h⟩ | ⟨h0, hs, h⟩ | ⟨h0, hs, h⟩ := delayStep_cases expire s <;> rw [h]
  · rw [delayStep_of_zero (s := setPins p s) h0, he]
  · exact delayStep_of_tick (s := setPins p s) (Nat.pos_of_ne_zero h0) (ht.trans hs)
  · exact delayStep_of_no_tick (s := setPins p s) (Nat.pos_of_ne_zero h0) (ht.trans hs)

/-- How an operation starts is decided by its code. -/
theorem startOf_setPins (p : Pins) (c : OpCode) (s : State) : startOf c (setPins p s) = setPins p (startOf c s) := by
  rcases opCode_cases c with rfl | rfl | rfl | rfl | rfl | rfl | rfl | rfl <;> rfl

theorem hostOp_setPins (p : Pins) (c : OpCode) (s : State) :
    hostOp c (startOf c) (setPins p s) = setPins p (hostOp c (startOf c) s) := by
  obtain ⟨hq, h⟩ | ⟨hq, ha, h⟩ | ⟨hq, ha, h⟩ := hostOp_cases c (startOf c) s <;> rw [h]
  · exact hostOp_busy (s := setPins p s) hq
  · exact (hostOp_run (s := setPins p s) hq ha).trans (startOf_setPins p c (accept c s))
  · exact hostOp_refuse (s := setPins p s) hq ha

/-- What the core does in a step is decided by the inputs it looks at. -/
theorem runStep_setPins {s : State} {p : Pins} (h : LooksAlike s p) : runStep (setPins p s) = setPins p (runStep s) := by
  cases hu : usesTransport s.seq
  · cases hq : s.seq with
    | initOpen | initStatus | initWrite | measTrigger | measPoll | measFrame | rstWrite => simp [hq, usesTransport] at hu
    | initDelay | measSettle | rstDelay =>
      simp only [runStep, show (setPins p s).seq = _ from hq, hq]
      exact delayStep_setPins h.tick rfl
    | idle =>
      obtain ⟨ho, hc⟩ := h.operation hq
      simp only [runStep, show (setPins p s).seq = _ from hq, hq, setPins_pins, ho, hc, hostOp_setPins]
      exact (apply_ite (setPins p) _ _ _).symm
  · rw [runStep_transport hu, runStep_transport (s := setPins p s) hu]
    exact transact_setPins h.answer s.seq

/-- The whole step is decided by the inputs it looks at. -/
theorem step_setPins {s : State} {p : Pins} (h : LooksAlike s p) : step (setPins p s) = step s := by
  have hcore : coreStep (setPins p s) = setPins p (coreStep s) := by
    simp only [coreStep, setPins_pins, h.reset, runStep_setPins h]
    rw [apply_ite (setPins p)]
    simp [hardwareReset, setPins, h.straps]
  rw [step_eq, step_eq, hcore, sampleInputs_setPins]

/-- Settles O36: the other inputs are the state's own, and the answer port is not looked at. -/
theorem lateAnswersIgnored : Obligations.LateAnswersIgnored := fun s _ _ _ _ _ hp =>
  step_setPins (s := s) ⟨rfl, rfl, rfl, fun _ => ⟨rfl, rfl⟩, fun h => by simp [hp] at h⟩

/-- Settles O16: a busy core does not look at the operation port and executes no operation; an idle one executes the code
presented. -/
theorem busyCoreSeesNoOperation : Obligations.BusyCoreSeesNoOperation := by
  refine ⟨fun s v c hq => ?_, fun s c hq => ?_, fun s hr hq ho => ?_⟩
  · exact step_setPins (s := s) ⟨rfl, rfl, rfl, fun h => absurd h hq, fun _ => ⟨rfl, rfl, rfl, rfl, rfl⟩⟩
  · rw [exec_decodeHostop, hostOp_busy hq]
  · rw [step_run hr, runStep_of_operation hq ho rfl (exec_decodeHostop _ s), exec_decodeHostop]
    rfl

/-! ### Waiting -/

/-- Settles O35: with no operation presented the idle core leaves its state as it is. -/
theorem idleDoesNothing : Obligations.IdleDoesNothing := fun s hq hr ho => by
  rw [step_run hr]
  simp [runStep, hq, ho]

/-- A run whose first step has no reset, and whose second one has its inputs in `env`. -/
theorem run_of_env (n : Nat) {s u : State} {p : Pins} {rest : List Pins} (hr : s.pins.reset = false)
    (he : s.env = p :: rest) (hu : runStep s = u) :
    Host.Core.run Sys2Proof.core (n + 1) s = Host.Core.run Sys2Proof.core n (feed (p :: rest) u) := by
  have hfeed : feed (s.pins :: p :: rest) s = s := by rw [← he, feed_pins_env]
  have hrun := run_feed n hr (List.cons_ne_nil p rest) (hfeed.symm ▸ hu)
  rwa [hfeed] at hrun

/-- A transport state whose request is not answered stays as it is. -/
theorem runStep_of_unanswered {s : State} (hu : usesTransport s.seq = true) (hp : s.trPending = true)
    (hv : s.pins.rspValid = false) : runStep s = s :=
  (runStep_transport hu).trans (transact_wait hp hv)

/-- Settles O53, by induction on the number of steps: each leaves the state to the next with its inputs. -/
theorem unansweredCallIsStuck : Obligations.UnansweredCallIsStuck := by
  intro n
  induction n with
  | zero => exact fun s _ _ _ _ => ⟨s.pins, rfl, rfl⟩
  | succ n ih =>
    intro s hu hp hn hin
    obtain ⟨⟨hr, hv⟩, henv⟩ := List.forall_mem_cons.1 hin
    obtain ⟨p, rest, he⟩ := List.exists_cons_of_length_pos (Nat.zero_lt_of_lt hn)
    rw [he] at hn henv ⊢
    obtain ⟨q, hq, hrun⟩ := ih (feed (p :: rest) s) hu hp (Nat.le_of_succ_le_succ hn) henv
    exact ⟨q, hq, (run_of_env n hr he (runStep_of_unanswered hu hp hv)).trans hrun⟩

/-! ### A failed measurement -/

/-- A move that completes with `IoError` or `Timeout` ends the operation in progress, in a transport state, and writes no
result flag. -/
theorem Move.flags_of_failed_done {s u : State} {c : OpCode} {st : Status} {pre : List Event} (hm : Move s u)
    (hst : st = .ioError ∨ st = .timeout) (htr : u.trace = s.trace ++ pre ++ [.done c st]) :
    usesTransport s.seq = true ∧ s.curOp = c ∧ u.crcOk = s.crcOk ∧ u.hasTemp = s.hasTemp ∧ u.hasHum = s.hasHum := by
  have hlast := congrArg List.getLast? htr
  cases hm with
  | ioError r hr =>
    obtain ⟨hc, -⟩ : s.curOp = c ∧ _ = st := by simpa using hlast
    exact ⟨usesTransport_of_seqRequest hr, hc, rfl, rfl, rfl⟩
  | pollTimeout hq =>
    obtain ⟨hc, -⟩ : s.curOp = c ∧ _ = st := by simpa using hlast
    exact ⟨by simp [hq, usesTransport], hc, rfl, rfl, rfl⟩
  | idleWait | wait | tick | delayWait | settleExpired => simp at htr
  | issue r => cases r <;> simp [reqEvent] at hlast
  | initAccepted | measureAccepted | resetAccepted | opened | uncalibrated | delayStarted | pollClear | pollBusy =>
    simp at hlast
  | refused | calibrated | frameRead | initExpired | resetExpired =>
    obtain ⟨-, rfl⟩ : _ = c ∧ _ = st := by simpa using hlast
    simp at hst

/-- In a transport state, a measurement's code as the operation in progress says that the session is measuring. -/
theorem StateInv.measuring_of_isGet {s : State} (h : StateInv s) (hu : usesTransport s.seq = true)
    (hc : isGet s.curOp = true) : s.sessState = .measuring := by
  obtain hq | hq | hq := operation_of_usesTransport hu
  · simp [(h.init_running hq).2, isGet_iff, codeInit] at hc
  · exact (h.meas_running hq).1
  · simp [(h.rst_running hq).2, isGet_iff, codeSoftReset] at hc

/-- Settles O48: no result flag is set during a measurement, the failing step sets none, and a register whose flag is clear
is 0. -/
theorem failedMeasurementLeavesNoResult : Obligations.FailedMeasurementLeavesNoResult := by
  intro s t c st pre hi hres hr h hc hst htr
  have hres' : ResultsDescribeFrame t := stepKeepsResultsTrue s t hi hres h
  obtain rfl := eq_sampleInputs_runStep hr h
  obtain ⟨hu, rfl, hcrc, htemp, hhum⟩ := (runStep_move s).flags_of_failed_done hst (by simpa using htr)
  obtain ⟨hcrc0, htemp0, hhum0⟩ := hres.none_yet (.inr (hi.measuring_of_isGet hu hc))
  have ht : (sampleInputs (runStep s)).hasTemp = false := by rw [sampleInputs_hasTemp, htemp, htemp0]
  have hh : (sampleInputs (runStep s)).hasHum = false := by rw [sampleInputs_hasHum, hhum, hhum0]
  obtain ⟨hrawT, htempQ⟩ := hres'.no_temp ht
  obtain ⟨hrawH, hhumQ⟩ := hres'.no_hum hh
  exact ⟨hrawT, hrawH, htempQ, hhumQ, ht, hh, by rw [sampleInputs_crcOk, hcrc, hcrc0]⟩

/-! ### How long a delay lasts -/

/-- A delay state uses no transport. -/
theorem usesTransport_of_delay {q : Seq} (hq : q = .initDelay ∨ q = .measSettle ∨ q = .rstDelay) :
    usesTransport q = false := by
  rcases hq with rfl | rfl | rfl <;> rfl

/-- A move in a delay state with a tick to go counts at most one and does nothing else. -/
theorem Move.delay_goes_on {s u : State} (hm : Move s u)
    (hq : s.seq = .initDelay ∨ s.seq = .measSettle ∨ s.seq = .rstDelay) (h0 : 0 < s.dlyCnt) :
    ∃ k, s.dlyCnt ≤ k + 1 ∧ u = { s with dlyCnt := k } := by
  cases hm with
  | tick => exact ⟨s.dlyCnt - 1, by omega, rfl⟩
  | delayWait => exact ⟨s.dlyCnt, by omega, rfl⟩
  | initExpired _ hz | settleExpired _ hz | resetExpired _ hz => omega
  | issue r hr | ioError r hr => exact absurd (usesTransport_of_seqRequest hr) (by simp [usesTransport_of_delay hq])
  | wait hu => simp [usesTransport_of_delay hq] at hu
  | delayStarted _ _ hw => rcases hq with hq | hq | hq <;> simp [hq] at hw
  | idleWait h | refused h | initAccepted h | measureAccepted h | resetAccepted h | opened h | calibrated h
    | uncalibrated h | pollClear h | pollTimeout h | pollBusy h | frameRead h => simp [h] at hq

/-- Settles O54, by induction on the number of steps: each is a move of the delay, which counts at most one. -/
theorem delaysAreNotShortened : Obligations.DelaysAreNotShortened := by
  intro n
  induction n with
  | zero =>
    intro s t _ _ _ _ h
    obtain rfl := Host.Outcome.next.inj h
    exact ⟨rfl, rfl, le_rfl⟩
  | succ n ih =>
    intro s t hq hk hn hin h
    obtain ⟨hr, henv⟩ := List.forall_mem_cons.1 hin
    obtain ⟨p, rest, he⟩ := List.exists_cons_of_length_pos (Nat.zero_lt_of_lt hn)
    obtain ⟨k, hk', hu⟩ := (runStep_move s).delay_goes_on hq (Nat.zero_lt_of_lt hk)
    rw [run_of_env n hr he hu] at h
    rw [he] at hn henv
    obtain ⟨hseq, htrace, hcnt⟩ := ih (feed (p :: rest) { s with dlyCnt := k }) t hq
      (Nat.le_of_succ_le_succ (hk.trans hk')) (Nat.le_of_succ_le_succ hn) henv h
    have hcnt : k ≤ t.dlyCnt + n := hcnt
    exact ⟨hseq, htrace, by omega⟩

/-! ### A poll without a bound -/

/-- Without a bound busy rounds leave the poll counter (10_state.md R40). -/
theorem foldl_busyPolled_pollCnt {s : State} (rounds : List (Pins × Pins)) (h0 : s.cfgPollLimit = 0#16) :
    (rounds.foldl busyPolled s).pollCnt = s.pollCnt := by
  induction rounds generalizing s with
  | nil => rfl
  | cons r rounds ih => exact (ih (s := busyPolled s r) h0).trans (if_pos h0)

/-- Settles O55: the busy rounds leave all but the frame buffer, the counter and the trace, and without a bound they leave
the counter too. -/
theorem unboundedPollGoesOn : Obligations.UnboundedPollGoesOn := by
  intro rounds s p rest hq hp h0 hb hin
  have hrun := run_busyRounds 0 hq hp hb (.inl h0) (List.cons_ne_nil p rest)
  rw [← hin, feed_pins_env, Nat.zero_add] at hrun
  have hcnt := foldl_busyPolled_pollCnt rounds h0
  obtain ⟨f, full, cnt, hfold⟩ := foldl_busyPolled rounds s
  rw [hfold] at hrun hcnt
  exact ⟨_, hrun, hq, hp, rfl, rfl, hcnt, rfl, rfl, rfl⟩

end Sys2Proof.Machine
end
